-- ==== Sys2Proof/Word.lean ====
section
/-! DEFINITION. The word types of the device and their plainest arithmetic (R2: bit 0 is the least significant bit). -/
namespace Sys2Proof

/-- A register, an instruction operand, a scalar register: 32 bits (R57, R353). -/
abbrev Word := BitVec 32
/-- One byte of any memory. -/
abbrev Byte := BitVec 8
/-- An iteration tag (R35). -/
abbrev Tag := BitVec 16
/-- A tensor descriptor, 64 bytes (R91). -/
abbrev Desc := BitVec 512
/-- A refusal code of the firewall or a reason code of a check (R140, R367). -/
abbrev Code := Nat

/-- A table by number: pairs of a key and a value, keys rising, no key twice. -/
abbrev Tbl (α : Type) := List (Nat × α)
/-- A register block: the words by their offset. -/
abbrev Regs := Tbl Word

end Sys2Proof
end

