-- ==== Sys2Proof/Machine/Bits.lean ====
section
/-! DEFINITION. Bit fields, byte order, tables and memories: the helpers that every other file of the machine uses. -/
namespace Sys2Proof

/-- The field [hi:lo] of a word, as a number (R2). -/
def fld {n : Nat} (w : BitVec n) (hi lo : Nat) : Nat := (w.toNat >>> lo) % 2 ^ (hi + 1 - lo)

/-- Bit `i` of a word. -/
def bit {n : Nat} (w : BitVec n) (i : Nat) : Bool := w.getLsbD i

/-- `w` with field [hi:lo] replaced by `v`. -/
def setFld {n : Nat} (w : BitVec n) (hi lo v : Nat) : BitVec n :=
  let m : Nat := (2 ^ (hi + 1 - lo) - 1) <<< lo
  (w &&& ~~~(BitVec.ofNat n m)) ||| BitVec.ofNat n ((v % 2 ^ (hi + 1 - lo)) <<< lo)

/-- `w` with bit `i` set to `b`. -/
def setBit {n : Nat} (w : BitVec n) (i : Nat) (b : Bool) : BitVec n := setFld w i i b.toNat

/-- 1 for true. -/
def b2n (b : Bool) : Nat := if b then 1 else 0

/-- The low 32 bits of a number as a word. -/
def w32 (n : Nat) : Word := BitVec.ofNat 32 n

/-- The value of an m-bit two's complement field. -/
def signed (m v : Nat) : Int := if v % 2 ^ m < 2 ^ (m - 1) then (v % 2 ^ m : Nat) else ((v % 2 ^ m : Nat) : Int) - 2 ^ m

/-- Adds to a counter that stops at its largest value. -/
def satAdd (max a b : Nat) : Nat := if a + b > max then max else a + b

/-- The `k` bytes of a number, least significant first (R2). -/
def leBytes : Nat → Nat → List Byte
  | 0, _ => []
  | k + 1, v => BitVec.ofNat 8 v :: leBytes k (v / 256)

/-- The number whose bytes are given least significant first (R2). -/
def leNat : List Byte → Nat
  | [] => 0
  | b :: bs => b.toNat + 256 * leNat bs

/-- The number whose bytes are given most significant first. -/
def beNat (l : List Byte) : Nat := l.foldl (fun a b => 256 * a + b.toNat) 0

/-- The words of a byte list, four bytes each, least significant first. -/
def bytesToWords : List Byte → List Word
  | a :: b :: c :: d :: r => w32 (leNat [a, b, c, d]) :: bytesToWords r
  | _ => []

/-! ### Tables: pairs of a key and a value, keys rising -/

/-- The value at a key, or the default. -/
def tget {α : Type} (t : Tbl α) (k : Nat) (d : α) : α :=
  match t with
  | [] => d
  | (j, v) :: r => if j = k then v else tget r k d

/-- The value at a key, if it is listed. -/
def tfind {α : Type} (t : Tbl α) (k : Nat) : Option α :=
  match t with
  | [] => none
  | (j, v) :: r => if j = k then some v else tfind r k

/-- The table with the value at a key replaced or inserted in order. -/
def tset {α : Type} (t : Tbl α) (k : Nat) (v : α) : Tbl α :=
  match t with
  | [] => [(k, v)]
  | (j, u) :: r => if j = k then (k, v) :: r else if k < j then (k, v) :: (j, u) :: r else (j, u) :: tset r k v

/-- The table without a key. -/
def tdel {α : Type} (t : Tbl α) (k : Nat) : Tbl α := t.filter (fun x => x.1 ≠ k)

/-- Keys of a table rise. -/
def twf {α : Type} (t : Tbl α) : Bool := (t.zip t.tail).all (fun x => x.1.1 < x.2.1)

end Sys2Proof
end

