-- ==== Sys2Proof/Syntax.lean ====
section
/-! DEFINITION. The commands: one constructor of Instr per row of spec/opcode_table.json, with the row's operands.

A Wofer instruction is issued by a run of a core: the setup run or the firing in a slot (R62, R64). Its operand is every
bit of the word's format that the row itself does not fix, reserved and unused fields included (R59 to R61). -/
namespace Sys2Proof

abbrev CoreIx := Fin 5120
abbrev ClIx := Fin 160
abbrev LpIx := Fin 16
abbrev McIx := Fin 16
abbrev PartIx := Fin 8

/-- What issues instructions in a core: the setup run or a resident firing's slot (R62, R64). -/
inductive RunId
  | setup
  | slot (k : Fin 8)
  deriving DecidableEq, Repr

/-- The guard fields of every instruction: GN bit 57, GP bits 56 to 54 (R59, R60). -/
structure Guard where
  gn : Bool
  gp : BitVec 3
  deriving DecidableEq, Repr

/-- Format A: rd [47:43], rs1 [42:38], rs2 [37:33], pd [32:30], reserved [29:0]. -/
structure FmtA where
  g : Guard
  rd : BitVec 5
  rs1 : BitVec 5
  rs2 : BitVec 5
  pd : BitVec 3
  rsv : BitVec 30
  deriving DecidableEq, Repr

/-- Format B: rd [47:43], rs1 [42:38], imm32 [37:6], pd [5:3], reserved [2:0]. -/
structure FmtB where
  g : Guard
  rd : BitVec 5
  rs1 : BitVec 5
  imm : BitVec 32
  pd : BitVec 3
  rsv : BitVec 3
  deriving DecidableEq, Repr

/-- Format C: rd or rs1 [47:43], target [42:34], imm16 [33:18], reserved [17:0]. -/
structure FmtC where
  g : Guard
  r1 : BitVec 5
  target : BitVec 9
  imm : BitVec 16
  rsv : BitVec 18
  deriving DecidableEq, Repr

/-- Format D: rd or rsd [47:43], rs1 [42:38], imm20 [37:18], reserved [17:0]. -/
structure FmtD where
  g : Guard
  rd : BitVec 5
  rs1 : BitVec 5
  imm : BitVec 20
  rsv : BitVec 18
  deriving DecidableEq, Repr

/-- Format E: rd, rs1, rs2, T [32], port [31:29], mask [28:21], entry [20:12], reserved [11:0]. -/
structure FmtE where
  g : Guard
  rd : BitVec 5
  rs1 : BitVec 5
  rs2 : BitVec 5
  t : Bool
  port : BitVec 3
  mask : BitVec 8
  entry : BitVec 9
  rsv : BitVec 12
  deriving DecidableEq, Repr

/-- Format F: ports A [37:35], B [34:32], C [31:29], D [28:26], ps [25:23]; reserved [47:38] and [22:0]. -/
structure FmtF where
  g : Guard
  hi : BitVec 10
  pa : BitVec 3
  pb : BitVec 3
  pc : BitVec 3
  pd : BitVec 3
  ps : BitVec 3
  rsv : BitVec 23
  deriving DecidableEq, Repr

/-- Format G: rd, rs1 (object name), rs2, pd [32:30], cond [29:27], timeout [26:7], reserved [6:0]. -/
structure FmtG where
  g : Guard
  rd : BitVec 5
  rs1 : BitVec 5
  rs2 : BitVec 5
  pd : BitVec 3
  cond : BitVec 3
  timeout : BitVec 20
  rsv : BitVec 7
  deriving DecidableEq, Repr

/-- Format H: mode [47:46], ctx [45:44], port [43:41], rs2 [40:36], T [35], reserved [34:0]. -/
structure FmtH where
  g : Guard
  mode : BitVec 2
  ctx : BitVec 2
  port : BitVec 3
  rs2 : BitVec 5
  t : Bool
  rsv : BitVec 35
  deriving DecidableEq, Repr

/-- Format J: imm16 [47:32], reserved [31:0]. -/
structure FmtJ where
  g : Guard
  imm : BitVec 16
  rsv : BitVec 32
  deriving DecidableEq, Repr

/-- Format M: dA [47:44], dB [43:40], bank [39:38], CA [37], CP [36:34], rp [33:29], ra [28:24], rb [23:19], reserved [18:0]. -/
structure FmtM where
  g : Guard
  dA : BitVec 4
  dB : BitVec 4
  bank : BitVec 2
  ca : Bool
  cp : BitVec 3
  rp : BitVec 5
  ra : BitVec 5
  rb : BitVec 5
  rsv : BitVec 19
  deriving DecidableEq, Repr

/-- Format N: bank [47:46], DST [45], dD or out port [44:41], OFMT [40:39], EPI [38:36], dE [35:32], rp [31:27],
roD [26:22], roE [21:17], side port [16:14], HALF [13], reserved [12:0]. -/
structure FmtN where
  g : Guard
  bank : BitVec 2
  dst : Bool
  dD : BitVec 4
  ofmt : BitVec 2
  epi : BitVec 3
  dE : BitVec 4
  rp : BitVec 5
  roD : BitVec 5
  roE : BitVec 5
  side : BitVec 3
  half : Bool
  rsv : BitVec 13
  deriving DecidableEq, Repr

/-- Format V: dD, dA, dB, dC, FN [31:26], rd [25:21], rp [20:16], roD [15:11], roA [10:6], roB [5:1], SR [0]. -/
structure FmtV where
  g : Guard
  dD : BitVec 4
  dA : BitVec 4
  dB : BitVec 4
  dC : BitVec 4
  fn : BitVec 6
  rd : BitVec 5
  rp : BitVec 5
  roD : BitVec 5
  roA : BitVec 5
  roB : BitVec 5
  sr : Bool
  deriving DecidableEq, Repr

/-- Format W: dS [47:44], out port [43:41], in port [40:38], DIR [37:36], rp [35:31], roS [30:26], reserved [25:0]. -/
structure FmtW where
  g : Guard
  dS : BitVec 4
  outP : BitVec 3
  inP : BitVec 3
  dir : BitVec 2
  rp : BitVec 5
  roS : BitVec 5
  rsv : BitVec 26
  deriving DecidableEq, Repr

/-- Format L: dL [47:44], dR [43:40], CH [39:38], rp [37:33], roL [32:28], roR [27:23], reserved [22:0]. -/
structure FmtL where
  g : Guard
  dL : BitVec 4
  dR : BitVec 4
  ch : BitVec 2
  rp : BitVec 5
  roL : BitVec 5
  roR : BitVec 5
  rsv : BitVec 23
  deriving DecidableEq, Repr

/-- Format Q: dN [47:44], rs1 or rd [43:39], imm20 [38:19], word or sh [18:15], rs2 or w [14:10], reserved [9:0]. -/
structure FmtQ where
  g : Guard
  dN : BitVec 4
  r1 : BitVec 5
  imm : BitVec 20
  word : BitVec 4
  r2 : BitVec 5
  rsv : BitVec 10
  deriving DecidableEq, Repr

/-- A side of a cluster switch, in the order of R113: N, E, S, W, local. -/
inductive Side | n | e | s | w | loc
  deriving DecidableEq, Repr

/-- A net of the static fabric (R23, R113): 0 scalar, 1 vector, 2 control. -/
inductive Net | scalar | vector | control
  deriving DecidableEq, Repr

/-- An error that the burst code of an LPDDR6 read finds (R191): the 256-byte unit of the read, counted in its order, in which the burst lies, and
whether the code corrects it. -/
structure Burst where
  unit : Nat
  fixed : Bool
  deriving DecidableEq, Repr

/-- What the burst code of an LPDDR6 read finds (R191, R194): the bursts with an error. -/
structure Ecc where
  bursts : List Burst
  deriving DecidableEq, Repr

/-- No burst has an error. -/
def Ecc.clean : Ecc := { bursts := [] }

/-- What the host has done to the sectors of a read before it answers (R216): nothing, altered them, or put an earlier pair back. -/
inductive HostDid
  | kept
  | altered
  | earlier (n : Nat)
  deriving DecidableEq, Repr

/-- Where synchronisation objects live (R253). -/
inductive SyncUnit
  | hive (cl : ClIx)
  | port (lp : LpIx)
  deriving DecidableEq, Repr

/-- One synchronisation object (R253). -/
inductive ObjRef
  | hive (cl : ClIx) (n : Fin 128)
  | port (lp : LpIx) (n : Fin 64)
  deriving DecidableEq, Repr

/-- The function an access comes through (R298, R22): `vf p` is virtual function p + 1, which serves partition p. -/
inductive Fn
  | pf
  | vf (p : PartIx)
  | hcc (h : Fin 16)
  deriving DecidableEq, Repr

/-- An indirect port: the physical function's, a partition's, a cluster doorway's (R357, R358). -/
inductive IndPort
  | pf
  | part (p : PartIx)
  | door (cl : ClIx)
  deriving DecidableEq, Repr

/-- A mailbox of the root of trust (R315). -/
inductive Mailbox
  | pf
  | part (p : PartIx)
  deriving DecidableEq, Repr

/-- An island that keeps counters (R368, R396, R398). -/
inductive Island
  | cluster (cl : ClIx)
  | mc (m : McIx)
  | lnk (lp : LpIx)
  | hub
  | dd (die : Fin 4)
  deriving DecidableEq, Repr

/-- A flit of the peer link: the header fields of R279 and the 240 payload bytes as they are sent. -/
structure Flit where
  typ : BitVec 4
  vc : Bool
  enc : Bool
  keysel : Bool
  scrub : Bool
  seq : BitVec 12
  ackseq : BitVec 12
  ack : Bool
  nak : Bool
  crvc : Bool
  cred : BitVec 8
  info : BitVec 48
  crc : Word
  payload : List Byte
  deriving DecidableEq, Repr

/-- How a flit comes in (R277, R278): its CRC passes without correction; the symbol errors of the codewords that carry it. -/
structure FlitCheck where
  first : Bool
  errs : List Nat
  deriving DecidableEq, Repr

/-- What the far end's key agreement shows (R284, R286): its key mode, whether its identity signature verifies, its session number, its public
key (the ephemeral one, in FIXED mode the identity key), whether it still holds the session that a RETRAIN interrupted. -/
structure FarSecure where
  fixed : Bool
  sigOk : Bool
  session : Word
  pub : BitVec 768
  held : Bool
  deriving DecidableEq, Repr

/-- A firmware image as it is offered to the module (R311): the 256 bytes of its header, byte 0 in the lowest bits; whether the signature there is one
of the header's first 64 bytes and the body under the firmware key; its digest. -/
structure Image where
  header : BitVec 2048
  sigOk : Bool
  digest : BitVec 384
  deriving DecidableEq, Repr

/-- An SRAM array of the silicon (R334): of a core of a physical cluster (0 data, 1 program memory, 2 accumulators), or, without a core, staging. -/
structure PhysArray where
  die : Fin 4
  cl : Fin 42
  core : Option (Fin 34)
  kind : Fin 3
  deriving DecidableEq, Repr

/-- What start-up finds on the silicon (R312, R314, R336, R391): physical clusters whose switch, roller or hive fails (die, number), cores that fail,
arrays with their rows and columns that fail, spare lanes that fail (bit l receive, bit 16 + l transmit, of port l); bit m of a package mask is package m; sub-channels that fail at both rates;
PM_FLOOR. -/
structure BootFacts where
  counterOk : Bool
  pufOk : Bool
  badClusters : List (Fin 4 × Fin 42)
  badCores : List (Fin 4 × Fin 42 × Fin 34)
  badArrays : List (PhysArray × Nat × Nat)
  badLanes : BitVec 32
  lnkLock : BitVec 16
  mcLock : BitVec 16
  slow : BitVec 16
  dead : BitVec 16
  badSub : List (Fin 16 × Fin 16)
  floorW : BitVec 12
  deriving DecidableEq, Repr

/-- Completion status (R301): successful, unsupported request, completer abort, poisoned. -/
inductive CplStatus | ok | ur | ca | poisoned
  deriving DecidableEq, Repr

/-- A DOE data object: its type and its payload in DW (R308). -/
structure DoeObject where
  typ : BitVec 8
  payload : List Word
  deriving DecidableEq, Repr

/-- How the bus owner reaches the sideband when it assigns an endpoint ID (R309): at an I2C address; at a static I3C address that SETDASA gives a
dynamic one; at a dynamic address that ENTDAA has given. -/
inductive SbBus
  | i2c (addr : BitVec 7)
  | setdasa (static_ dyn : BitVec 7)
  | entdaa (dyn : BitVec 7)
  deriving DecidableEq, Repr

/-- A sideband message: the bus address, MCTP type, whether PEC, length and header are good, its bytes (R309, R393). -/
structure Mctp where
  addr : BitVec 7
  typ : BitVec 8
  good : Bool
  bytes : List Byte
  deriving DecidableEq, Repr

/-- A data-bearing word that the physical function reads (R329, R331): through BAR0 or through an indirect port. -/
inductive SealedLoc
  | bar0 (off : BitVec 26)
  | ind (a : Word)
  deriving DecidableEq, Repr

/-- The hottest reading of each die, in degrees (R383). -/
structure Temps where
  c0 : BitVec 8
  c1 : BitVec 8
  c2 : BitVec 8
  c3 : BitVec 8
  h : BitVec 8
  deriving DecidableEq, Repr

/-- A row of 512 bytes (R334): of a core's data SRAM, program memory or accumulators, or of a cluster's staging SRAM. -/
inductive SramRow
  | data (c : CoreIx) (row : Fin 512)
  | prog (c : CoreIx) (row : Fin 32)
  | acc (c : CoreIx) (row : Fin 32)
  | staging (cl : ClIx) (row : Fin 16384)
  deriving DecidableEq, Repr

/-- A unit that can fail or worsen (R327, R335, R343). -/
inductive FaultUnit
  | cluster (cl : ClIx)
  | core (c : CoreIx)
  | row (a : SramRow)
  | lane (lp : LpIx) (tx : Bool) (lane : Fin 4)
  | sub (m : McIx) (j : Fin 16)
  | other (pids : BitVec 8)
  deriving DecidableEq, Repr

/-- A spare that the hub tests (R337). -/
inductive Spare
  | cluster (die : Fin 4) (phys : Fin 42)
  | core (die : Fin 4) (cl : Fin 42) (core : Fin 34)
  | row (a : PhysArray)
  | lane (lp : LpIx) (tx : Bool)
  deriving DecidableEq, Repr

/-- An access of a host-class core (R190): a tier address is LPDDR6 page and offset, or staging cluster and offset. -/
inductive HccAccess
  | load (space : Fin 4) (cl : ClIx) (addr : BitVec 48) (n : Nat) (ecc : Ecc)
  | store (space : Fin 4) (cl : ClIx) (addr : BitVec 48) (bytes : List Byte)
  | sync (op : Fin 5) (name : Word) (cond : BitVec 3) (arg : Word)
  deriving DecidableEq, Repr

/-- The commands, in the order of spec/opcode_table.json. (log 81: DESIGN CHOICE.) -/
inductive Instr
  /-- ADD (R69): Scalar add: rd takes rs1 + rs2 modulo 2^32. -/
  | add (c : CoreIx) (r : RunId) (f : FmtA)
  /-- SUB (R69): Scalar subtract: rd takes rs1 - rs2 modulo 2^32. -/
  | sub (c : CoreIx) (r : RunId) (f : FmtA)
  /-- AND (R69): Bitwise AND of rs1 and rs2 into rd. -/
  | and_ (c : CoreIx) (r : RunId) (f : FmtA)
  /-- OR (R69): Bitwise OR of rs1 and rs2 into rd. -/
  | or_ (c : CoreIx) (r : RunId) (f : FmtA)
  /-- XOR (R69): Bitwise XOR of rs1 and rs2 into rd. -/
  | xor (c : CoreIx) (r : RunId) (f : FmtA)
  /-- SHL (R69): Left shift of rs1 by the low 5 bits of rs2. -/
  | shl (c : CoreIx) (r : RunId) (f : FmtA)
  /-- SHR (R69): Logical right shift of rs1 by the low 5 bits of rs2. -/
  | shr (c : CoreIx) (r : RunId) (f : FmtA)
  /-- SRA (R69): Arithmetic right shift of rs1 by the low 5 bits of rs2. -/
  | sra (c : CoreIx) (r : RunId) (f : FmtA)
  /-- MUL (R69): Low 32 bits of the product of rs1 and rs2. -/
  | mul (c : CoreIx) (r : RunId) (f : FmtA)
  /-- MULH (R69): High 32 bits of the signed product of rs1 and rs2. -/
  | mulh (c : CoreIx) (r : RunId) (f : FmtA)
  /-- MULHU (R69): High 32 bits of the unsigned product of rs1 and rs2. -/
  | mulhu (c : CoreIx) (r : RunId) (f : FmtA)
  /-- MIN (R69): Signed minimum of rs1 and rs2. -/
  | min (c : CoreIx) (r : RunId) (f : FmtA)
  /-- MAX (R69): Signed maximum of rs1 and rs2. -/
  | max (c : CoreIx) (r : RunId) (f : FmtA)
  /-- MINU (R69): Unsigned minimum of rs1 and rs2. -/
  | minu (c : CoreIx) (r : RunId) (f : FmtA)
  /-- MAXU (R69): Unsigned maximum of rs1 and rs2. -/
  | maxu (c : CoreIx) (r : RunId) (f : FmtA)
  /-- SEL (R69): rd takes rs1 if p[pd] is set, else rs2. -/
  | sel (c : CoreIx) (r : RunId) (f : FmtA)
  /-- CMP_EQ (R69): p[pd] takes rs1 == rs2. -/
  | cmpEq (c : CoreIx) (r : RunId) (f : FmtA)
  /-- CMP_NE (R69): p[pd] takes rs1 != rs2. -/
  | cmpNe (c : CoreIx) (r : RunId) (f : FmtA)
  /-- CMP_LT (R69): p[pd] takes signed rs1 < rs2. -/
  | cmpLt (c : CoreIx) (r : RunId) (f : FmtA)
  /-- CMP_LTU (R69): p[pd] takes unsigned rs1 < rs2. -/
  | cmpLtu (c : CoreIx) (r : RunId) (f : FmtA)
  /-- CMP_GE (R69): p[pd] takes signed rs1 >= rs2. -/
  | cmpGe (c : CoreIx) (r : RunId) (f : FmtA)
  /-- CMP_GEU (R69): p[pd] takes unsigned rs1 >= rs2. -/
  | cmpGeu (c : CoreIx) (r : RunId) (f : FmtA)
  /-- TAG_YNG (R69): p[pd] is set when the low 16 bits of rs1 are younger than those of rs2 under R35. -/
  | tagYng (c : CoreIx) (r : RunId) (f : FmtA)
  /-- PAND (R69): p[pd] takes the AND of two predicates. -/
  | pand (c : CoreIx) (r : RunId) (f : FmtA)
  /-- POR (R69): p[pd] takes the OR of two predicates. -/
  | por (c : CoreIx) (r : RunId) (f : FmtA)
  /-- PXOR (R69): p[pd] takes the XOR of two predicates. -/
  | pxor (c : CoreIx) (r : RunId) (f : FmtA)
  /-- PNOT (R69): p[pd] takes the inverse of a predicate. -/
  | pnot (c : CoreIx) (r : RunId) (f : FmtA)
  /-- MFS (R70): rd takes the special register that the rs1 field numbers; numbers 9 to 31 raise ILLEGAL. -/
  | mfs (c : CoreIx) (r : RunId) (f : FmtA)
  /-- ADDI (R69): rd takes rs1 plus the signed imm32. -/
  | addi (c : CoreIx) (r : RunId) (f : FmtB)
  /-- ANDI (R69): rd takes rs1 AND imm32. -/
  | andi (c : CoreIx) (r : RunId) (f : FmtB)
  /-- ORI (R69): rd takes rs1 OR imm32. -/
  | ori (c : CoreIx) (r : RunId) (f : FmtB)
  /-- XORI (R69): rd takes rs1 XOR imm32. -/
  | xori (c : CoreIx) (r : RunId) (f : FmtB)
  /-- SHLI (R69): Left shift of rs1 by an immediate amount. -/
  | shli (c : CoreIx) (r : RunId) (f : FmtB)
  /-- SHRI (R69): Logical right shift of rs1 by an immediate amount. -/
  | shri (c : CoreIx) (r : RunId) (f : FmtB)
  /-- SRAI (R69): Arithmetic right shift of rs1 by an immediate amount. -/
  | srai (c : CoreIx) (r : RunId) (f : FmtB)
  /-- MULI (R69): Low 32 bits of rs1 times the signed imm32. -/
  | muli (c : CoreIx) (r : RunId) (f : FmtB)
  /-- CMPI_EQ (R69): p[pd] takes rs1 == imm32. -/
  | cmpiEq (c : CoreIx) (r : RunId) (f : FmtB)
  /-- CMPI_NE (R69): p[pd] takes rs1 != imm32. -/
  | cmpiNe (c : CoreIx) (r : RunId) (f : FmtB)
  /-- CMPI_LT (R69): p[pd] takes signed rs1 < imm32. -/
  | cmpiLt (c : CoreIx) (r : RunId) (f : FmtB)
  /-- CMPI_LTU (R69): p[pd] takes unsigned rs1 < imm32. -/
  | cmpiLtu (c : CoreIx) (r : RunId) (f : FmtB)
  /-- CMPI_GE (R69): p[pd] takes signed rs1 >= imm32. -/
  | cmpiGe (c : CoreIx) (r : RunId) (f : FmtB)
  /-- CMPI_GEU (R69): p[pd] takes unsigned rs1 >= imm32. -/
  | cmpiGeu (c : CoreIx) (r : RunId) (f : FmtB)
  /-- LI (R69): rd takes imm32. -/
  | li (c : CoreIx) (r : RunId) (f : FmtB)
  /-- BR (R71): Branches to an absolute word address and pops any loops that it leaves. -/
  | br (c : CoreIx) (r : RunId) (f : FmtC)
  /-- JAL (R71): Writes pc + 1 to rd and branches to the target. -/
  | jal (c : CoreIx) (r : RunId) (f : FmtC)
  /-- JR (R71): Branches to the word address held in rs1[8:0]. -/
  | jr (c : CoreIx) (r : RunId) (f : FmtC)
  /-- LOOP_I (R72): Opens a hardware loop with an immediate count, or skips the body when the count is 0. -/
  | loopI (c : CoreIx) (r : RunId) (f : FmtC)
  /-- LOOP_R (R72): Opens a hardware loop with a count from a register, or skips the body when the count is 0. -/
  | loopR (c : CoreIx) (r : RunId) (f : FmtC)
  /-- BRK (R72): Leaves the innermost loop. -/
  | brk (c : CoreIx) (r : RunId) (f : FmtC)
  /-- LD_L_W (R73): Loads a 32-bit word from data SRAM. -/
  | ldLW (c : CoreIx) (r : RunId) (f : FmtD)
  /-- LD_L_H (R73): Loads a halfword from data SRAM, zero-extended. -/
  | ldLH (c : CoreIx) (r : RunId) (f : FmtD)
  /-- LD_L_HS (R73): Loads a halfword from data SRAM, sign-extended. -/
  | ldLHs (c : CoreIx) (r : RunId) (f : FmtD)
  /-- LD_L_B (R73): Loads a byte from data SRAM, zero-extended. -/
  | ldLB (c : CoreIx) (r : RunId) (f : FmtD)
  /-- LD_L_BS (R73): Loads a byte from data SRAM, sign-extended. -/
  | ldLBs (c : CoreIx) (r : RunId) (f : FmtD)
  /-- ST_L_W (R73): Posts a 32-bit store to data SRAM. -/
  | stLW (c : CoreIx) (r : RunId) (f : FmtD)
  /-- ST_L_H (R73): Posts a halfword store to data SRAM. -/
  | stLH (c : CoreIx) (r : RunId) (f : FmtD)
  /-- ST_L_B (R73): Posts a byte store to data SRAM. -/
  | stLB (c : CoreIx) (r : RunId) (f : FmtD)
  /-- MATCH (R75): Declares the matched ports and the firing entry, and ends the setup run. -/
  | match (c : CoreIx) (r : RunId) (f : FmtE)
  /-- RECV (R77): Takes the payload with tag tg on a port, waiting for it if necessary. -/
  | recv (c : CoreIx) (r : RunId) (f : FmtE)
  /-- SEND (R78): Sends a scalar or control token with tag tg or an explicit tag. -/
  | send (c : CoreIx) (r : RunId) (f : FmtE)
  /-- SEND_T (R78): Sends a tile token read from a data SRAM tile frame. -/
  | sendT (c : CoreIx) (r : RunId) (f : FmtE)
  /-- FIN (R79): Ends the setup run, or requests retirement of the firing. -/
  | fin (c : CoreIx) (r : RunId) (f : FmtE)
  /-- PORT_LAND (R76): Declares the landing ring of a tile input port. -/
  | portLand (c : CoreIx) (r : RunId) (f : FmtE)
  /-- STEER (R80): Sends the tag-tg data token to outA or outB according to the control token. -/
  | steer (c : CoreIx) (r : RunId) (f : FmtF)
  /-- STEER_P (R80): Sends the tag-tg data token to outA or outB according to a predicate. -/
  | steerP (c : CoreIx) (r : RunId) (f : FmtF)
  /-- MERGE (R80): Takes the tag-tg token from inB or inD as the control token selects, and sends it to outA. -/
  | merge (c : CoreIx) (r : RunId) (f : FmtF)
  /-- MERGE_ANY (R81): Takes the tag-tg token from whichever of inB and inD holds it; raises MERGE_DUP when both do. -/
  | mergeAny (c : CoreIx) (r : RunId) (f : FmtF)
  /-- SYN_FAA (R82): Issues a fetch-and-add on a hive or port object. -/
  | synFaa (c : CoreIx) (r : RunId) (f : FmtG)
  /-- SYN_LD (R82): Issues a load of a synchronisation object's value. -/
  | synLd (c : CoreIx) (r : RunId) (f : FmtG)
  /-- SYN_ST (R258): Posts a store to a synchronisation object. -/
  | synSt (c : CoreIx) (r : RunId) (f : FmtG)
  /-- SYN_WAIT (R83): Waits until an object meets a condition, with an optional timeout. -/
  | synWait (c : CoreIx) (r : RunId) (f : FmtG)
  /-- SYN_BAR (R255): Arrives at a barrier object and waits for the barrier to complete. -/
  | synBar (c : CoreIx) (r : RunId) (f : FmtG)
  /-- CTX_SW (R86): Retires the firing and switches the core to another context in DRAIN, PARK or DROP mode. -/
  | ctxSw (c : CoreIx) (r : RunId) (f : FmtH)
  /-- SEC_SEND (R85): Sends a section token on a control port. -/
  | secSend (c : CoreIx) (r : RunId) (f : FmtH)
  /-- NOP (R87): Does nothing. -/
  | nop (c : CoreIx) (r : RunId) (f : FmtJ)
  /-- TRAP (R88): Raises the SW trap with INFO set to imm16. -/
  | trap (c : CoreIx) (r : RunId) (f : FmtJ)
  /-- BKPT (R88): Raises the BKPT trap. -/
  | bkpt (c : CoreIx) (r : RunId) (f : FmtJ)
  /-- MARK (R401): Writes a trace marker carrying imm16, tg and the program counter. -/
  | mark (c : CoreIx) (r : RunId) (f : FmtJ)
  /-- MMA_H (R98): Dispatches a binary16 matrix multiply-accumulate into an accumulator bank. -/
  | mmaH (c : CoreIx) (r : RunId) (f : FmtM)
  /-- MMA_S (R98): Dispatches a binary32 matrix multiply-accumulate into an accumulator bank. -/
  | mmaS (c : CoreIx) (r : RunId) (f : FmtM)
  /-- DRAIN (R101): Dispatches a drain of a bank through the epilogue and conversion, to SRAM or to a port. -/
  | drain (c : CoreIx) (r : RunId) (f : FmtN)
  /-- ACC_SEQ (R100): Puts a bank in ordered mode with base, run length and stride, and sets E to the base. -/
  | accSeq (c : CoreIx) (r : RunId) (f : FmtM)
  /-- ACC_DFLT (R100): Returns a bank to default mode. -/
  | accDflt (c : CoreIx) (r : RunId) (f : FmtM)
  /-- VOP (R168): Dispatches an element-wise vector function over a whole tensor walk. -/
  | vop (c : CoreIx) (r : RunId) (f : FmtV)
  /-- VRED (R180): Dispatches a row reduction (sum, maximum, minimum, or extremum with index). -/
  | vred (c : CoreIx) (r : RunId) (f : FmtV)
  /-- VCMP (R106): Dispatches a compress of A under a mask into D and writes the count to rd. -/
  | vcmp (c : CoreIx) (r : RunId) (f : FmtV)
  /-- VEXP (R106): Dispatches an expand of A into D under a mask and writes the count to rd. -/
  | vexp (c : CoreIx) (r : RunId) (f : FmtV)
  /-- HALO (R107): Exchanges border rows or columns with neighbouring ranks. -/
  | halo (c : CoreIx) (r : RunId) (f : FmtW)
  /-- RL_LD (R108): Requests the roller to load a tensor from SPACE 1, 2 or 3 into core SRAM. -/
  | rlLd (c : CoreIx) (r : RunId) (f : FmtL)
  /-- RL_ST (R108): Requests the roller to store a tensor from core SRAM to SPACE 1, 2 or 3. -/
  | rlSt (c : CoreIx) (r : RunId) (f : FmtL)
  /-- RL_PF (R108): Requests the roller to prefetch from SPACE 2 or 3 into staging SRAM. -/
  | rlPf (c : CoreIx) (r : RunId) (f : FmtL)
  /-- DSC_LD (R94): Loads a 64-byte descriptor from data SRAM into a descriptor register, after its checks. -/
  | dscLd (c : CoreIx) (r : RunId) (f : FmtQ)
  /-- DSC_WR (R94): Writes one 32-bit word of a descriptor register, after its checks. -/
  | dscWr (c : CoreIx) (r : RunId) (f : FmtQ)
  /-- DSC_RD (R110): Reads one 32-bit word of a descriptor register into rd. -/
  | dscRd (c : CoreIx) (r : RunId) (f : FmtQ)
  /-- DSC_TGX (R110): Extracts a bit field of tg into rd. -/
  | dscTgx (c : CoreIx) (r : RunId) (f : FmtQ)
  /-- FIRING_START (R40): The core starts the oldest eligible firing and delivers its matched payloads. -/
  | firingStart (c : CoreIx)
  /-- RETIREMENT (R41): A firing that executed fin retires once its sends, drains, roller acceptances and NaN answers are complete. -/
  | retirement (c : CoreIx) (k : Fin 8)
  /-- TOKEN_ARRIVAL (R123): The token at the head of a port's arrival queue enters the matching store once its five conditions hold. -/
  | tokenArrival (c : CoreIx) (port : Fin 8)
  /-- LANDING_SLOT_FREE (R76): A landing slot is freed once its firing has retired and all its issued accesses are done. -/
  | landingSlotFree (c : CoreIx) (x : Fin 4) (port : Fin 8) (k : Fin 64)
  /-- SWITCH_TOKEN_ARRIVAL (R409): A token enters a switch and is queued by its route entry, or is discarded as misrouted. -/
  | switchTokenArrival (cl : ClIx) (side : Side) (net : Net) (slot : Fin 32)
  /-- SWITCH_FORWARD (R122): A ready slot is granted and moves one transfer to all its DST sides, including local delivery. -/
  | switchForward (cl : ClIx) (net : Net)
  /-- STEERING_PAIR (R129): A steering unit completes a pair by tag and sends the result two cycles later. -/
  | steeringPair (cl : ClIx) (u : Fin 16)
  /-- SECTION_TOKEN (R131): A switch receives a section token, forwards it, switches context in the given mode and records SEQ. -/
  | sectionToken (cl : ClIx) (side : Side) (slot : Fin 16)
  /-- SWITCH_DRAIN_END (R132): A draining switch finds no token of the old context left and lets tokens of the new context move. -/
  | switchDrainEnd (cl : ClIx)
  /-- CORE_SECTION_TOKEN (R86): A core receives a section token on a control port and starts a context switch. -/
  | coreSectionToken (c : CoreIx) (port : Fin 8)
  /-- CONTEXT_SWITCH_DONE (R86): A core switch completes once its drain or park waits are over, and the new context is activated. -/
  | contextSwitchDone (c : CoreIx)
  /-- MATRIX_QUEUE_START (R154): The head of the matrix queue starts its passes or its drain once its waits are over. -/
  | matrixQueueStart (c : CoreIx) (retry : Bool)
  /-- VECTOR_QUEUE_START (R169): The head of the vector queue starts walking its tiles. -/
  | vectorQueueStart (c : CoreIx) (retry : Bool)
  /-- NAN_REPORT (R163): The record block receives a NaN report, records or counts it, answers it if it waits, and raises the NaN interrupt. -/
  | nanReport (c : CoreIx)
  /-- NAN_ANSWER (R164): The answer to a NaN report reaches the core, completes the drain for R41, and raises NAN if recorded in halt mode. -/
  | nanAnswer (c : CoreIx)
  /-- STEP_OVERFLOW_REPORT (R238): A step-overflow report sets OVF or OVF_NEXT, or counts as stale, according to its step. -/
  | stepOverflowReport (c : CoreIx)
  /-- ROLLER_REQUEST_TAKEN (R205): A roller channel takes the next request from its sources in rotation. -/
  | rollerRequestTaken (cl : ClIx) (ch : Fin 4)
  /-- ROLLER_TRANSFER_DONE (R410): A roller request completes when its last byte is written at the destination. -/
  | rollerTransferDone (cl : ClIx) (ch : Fin 4)
  /-- RING_ENTRY_COMPLETE (R208): A ring entry completes, performs its SYNC_EN operation and IRQ, and advances HEAD. -/
  | ringEntryComplete (cl : ClIx) (ch : Fin 4)
  /-- MESH_PACKET_DELIVERY (R140): A packet reaches the destination router, is checked by the firewall, and takes effect or is refused. -/
  | meshPacketDelivery (n : Nat) (ecc : Ecc)
  /-- PARAM_READ (R225): A memory controller accepts a PARAM read and returns the cache of the record's effective slot. -/
  | paramRead (cl : ClIx) (ch : Fin 4) (ecc : Ecc)
  /-- SYNC_OPERATION (R255): A synchronisation operation takes effect at its object and releases any waiters. -/
  | syncOperation (u : SyncUnit)
  /-- SYNC_RESPONSE (R259): The response of a sync operation reaches the core and its firing resumes. -/
  | syncResponse (c : CoreIx) (r : RunId)
  /-- SYNC_TIMEOUT (R83): The timeout of a wait or barrier expires, clears p[pd] and sends a cancel for a remote object. -/
  | syncTimeout (c : CoreIx) (r : RunId)
  /-- SYNC_CANCEL (R260): A cancel reaches the object or its router, removes the held request or counts a late release. -/
  | syncCancel (u : SyncUnit)
  /-- GRADIENT_PACKET (R228): An update station takes a gradient packet for the open or next step, or discards it as STALE or REGION. -/
  | gradientPacket (m : McIx)
  /-- UPDATE_TILE (R235): A station updates a completed gradient tile: reads the live state, runs the kernel, writes the shadow slot and flips the pointer word. -/
  | updateTile (m : McIx) (ecc : Ecc)
  /-- COMPLETION_MESSAGE (R237): The step block receives a completion message, and the wait starts after the sixteenth. -/
  | completionMessage (p : PartIx) (m : McIx)
  /-- FORCING_MESSAGE (R230): The step block receives a forcing message and forces SKIP of the open step or keeps it for the next. -/
  | forcingMessage (p : PartIx)
  /-- OUTCOME_SAMPLE (R238): After the wait expires, the step block samples the outcome, writes PART_STEP_LAST and sends the decision. -/
  | outcomeSample (p : PartIx)
  /-- DECISION (R237): A controller applies the decision, updates UPD_LASTp on COMMIT, opens the next step and releases held gradients. -/
  | decision (p : PartIx) (m : McIx)
  /-- ACKNOWLEDGEMENT (R237): The last decision acknowledgement sets DECIDED and raises the step-decided interrupt. -/
  | acknowledgement (p : PartIx) (m : McIx)
  /-- PART_STEP_CTL_OPEN (R240): Opens step PART_STEP and latches the loss scale and hyperparameters. -/
  | partStepCtlOpen (fn : Fn) (p : PartIx) (v : Word)
  /-- PART_STEP_CTL_ABORT (R240): Decides the open step as forced SKIP, closes it and clears the overflow status. -/
  | partStepCtlAbort (fn : Fn) (p : PartIx) (v : Word)
  /-- PART_LSCALE (R242): A write sets the loss-scale exponent, or is ignored out of range with reason 0x06. -/
  | partLscale (fn : Fn) (p : PartIx) (v : Word)
  /-- UPD_LASTP (R251): A write sets a commit record only while no station is enabled for that partition. -/
  | updLastp (fn : Fn) (m : McIx) (p : PartIx) (v : Word)
  /-- UPD_CTL_ENABLE (R252): Enables an update station for the writer's partition after its consistency check. -/
  | updCtlEnable (fn : Fn) (m : McIx) (v : Word)
  /-- UPD_CTL_DISABLE (R241): Clearing ENABLE stops an update station so that it can be enabled again. -/
  | updCtlDisable (fn : Fn) (m : McIx) (v : Word)
  /-- PART_PRINT_CTL_ENABLE (R250): Arms a print after its consistency check. -/
  | partPrintCtlEnable (fn : Fn) (p : PartIx) (v : Word)
  /-- PRINT_DONE (R247): The print engine finishes, clears ENABLE, sets DONE, posts completion records and raises the print interrupt. -/
  | printDone (p : PartIx) (ecc : Ecc)
  /-- SINK_TOKEN (R271): A reduction sink takes a local gradient tile into the open round, or holds it. -/
  | sinkToken (lp : LpIx) (g : Fin 4) (k : Fin 8)
  /-- RESULT_DELIVERY (R271): A stored result is sent to its station once its step is the open step or the next, and the round advances. -/
  | resultDelivery (lp : LpIx) (g : Fin 4)
  /-- RG_CTL_ENABLE (R273): Enables a reduction group after its consistency check. -/
  | rgCtlEnable (fn : Fn) (lp : LpIx) (g : Fin 4) (v : Word)
  /-- RG_CTL_DISABLE (R274): Clearing ENABLE stops a reduction group and discards its store entries. -/
  | rgCtlDisable (fn : Fn) (lp : LpIx) (g : Fin 4) (v : Word)
  /-- FLIT_RECEIVE (R280): A receiver takes a flit in SEQ order, checks its CRC and returns ACK or NAK. -/
  | flitReceive (lp : LpIx) (f : Flit) (c : FlitCheck)
  /-- TAG (R283): A TAG flit closes an encryption group, which is verified and delivered whole or discarded. `plain` is what decrypting gives. -/
  | tag (lp : LpIx) (plain : List Byte)
  /-- LANE_FAULT_DECLARED (R288): A receiver declares a lane fault on loss of lock or uncorrectable codewords, and sends LANE_FAULT. `down`: the
  reverse direction is down as well. -/
  | laneFaultDeclared (lp : LpIx) (lane : Fin 4) (down : Bool)
  /-- LANE_FAULT (R288): The far transmitter receives the LANE_FAULT CTRL flit and moves the lane to the spare at the next frame. -/
  | laneFault (lp : LpIx) (lane : Fin 4)
  /-- LOCK_REGAINED (R288): Lock on the new lane set is regained and resending starts from the last acknowledged flit. -/
  | lockRegained (lp : LpIx)
  /-- DETECT (R286): The far end signals on enough lanes and the port moves to EQUALISE. -/
  | detect (lp : LpIx) (rx tx : BitVec 5)
  /-- EQUALISE (R286): Equalisation ends, moving to ALIGN or FAILED (LANES). -/
  | equalise (lp : LpIx) (rx tx : BitVec 5)
  /-- ALIGN (R286): Frame-marker and codeword lock on the four data lanes move the port to IDENT. -/
  | align (lp : LpIx)
  /-- IDENT (R289): Node, domain and port are exchanged and checked against PEER_NODE. -/
  | ident (lp : LpIx) (node : BitVec 16) (domain : BitVec 8) (port : BitVec 4)
  /-- SECURE (R284): Key agreement completes and the port becomes ACTIVE, or fails with KEYMODE or ATTEST. -/
  | secure (lp : LpIx) (far : FarSecure)
  /-- LNK_CTL_ENABLE (R287): Enables a link port after its check, and it begins training from DETECT. -/
  | lnkCtlEnable (fn : Fn) (lp : LpIx) (v : Word)
  /-- LNK_CTL_DISABLE (R286): Clearing ENABLE returns the port to DISABLED. -/
  | lnkCtlDisable (fn : Fn) (lp : LpIx) (v : Word)
  /-- REKEY (R285): A written rekey request runs a new key agreement, or is refused. -/
  | rekey (fn : Fn) (lp : LpIx) (v : Word)
  /-- REKEY_COUNTER (R285): The port starts a rekey on its own before the group counter reaches 2^32. -/
  | rekeyCounter (lp : LpIx)
  /-- SPARE (R288): A written SPARE request spares a data lane through takeover steps 2 to 5, or is refused. -/
  | spare (fn : Fn) (lp : LpIx) (v : Word)
  /-- HUB_NODE (R289): A write sets the node identity and domain only while every port is DISABLED. -/
  | hubNode (fn : Fn) (v : Word)
  /-- STN_CTL_ENABLE (R30): Enables a station entry after its consistency check. -/
  | stnCtlEnable (fn : Fn) (p : PartIx) (e : Fin 128) (v : Word)
  /-- STN_CTL_DISABLE (R90): Disabling a station ends its firings and clears TRAPPED and LOST in its cores. -/
  | stnCtlDisable (fn : Fn) (p : PartIx) (e : Fin 128) (v : Word)
  /-- CORE_CTL_RESUME (R90): Resumes a core stopped by SW or BKPT; ignored after other causes. -/
  | coreCtlResume (fn : Fn) (c : CoreIx) (v : Word)
  /-- CL_SW_CTL_ENABLE (R116): Enables the routes and steering entries of a context after their check. -/
  | clSwCtlEnable (fn : Fn) (cl : ClIx) (v : Word)
  /-- CL_SW_CTL_DISABLE (R116): Clearing ENABLEn discards the context's tokens held in the switch and releases stopped steering units. -/
  | clSwCtlDisable (fn : Fn) (cl : ClIx) (v : Word)
  /-- HV_CFG_ENABLE (R254): Enables a hive or port object, stamping its owner and zeroing its value and waiters. -/
  | hvCfgEnable (fn : Fn) (o : ObjRef) (v : Word)
  /-- HV_CFG_DISABLE (R254): Disabling an object answers every waiter with NOT_MAPPED. -/
  | hvCfgDisable (fn : Fn) (o : ObjRef) (v : Word)
  /-- HV_VALN (R256): A register write to an object's value acts as a store in the second requester group. -/
  | hvValn (fn : Fn) (o : ObjRef) (v : Word)
  /-- RL_RCTL_ENABLE (R209): Enables a roller command ring after its check and stamps its owner. -/
  | rlRctlEnable (fn : Fn) (cl : ClIx) (ch : Fin 4) (v : Word)
  /-- RL_RCTL_DISABLE (R209): Clearing a ring's ENABLE waits for the entry in progress and releases waiters. -/
  | rlRctlDisable (fn : Fn) (cl : ClIx) (ch : Fin 4) (v : Word)
  /-- PART_NAN_CTL_HALT (R164): A HALT write takes effect at the record block and reaches every core's copy within 2 us. -/
  | partNanCtlHalt (fn : Fn) (p : PartIx) (v : Word)
  /-- PART_NAN_REC0_VALID (R166): Writing 1 clears the NaN record and re-arms it. -/
  | partNanRec0Valid (fn : Fn) (p : PartIx) (v : Word)
  /-- PART_HTK_CTL_LOAD (R219): Loads a host-tier key into an empty slot with an epoch, after its check. -/
  | partHtkCtlLoad (fn : Fn) (p : PartIx) (v : Word)
  /-- PART_HTK_CTL_SWEEP (R219): Retires a LIVE slot and starts the re-encryption sweep. -/
  | partHtkCtlSweep (fn : Fn) (p : PartIx) (v : Word)
  /-- SWEEP_PAGE (R218): The cipher holds, re-encrypts and re-tags one host page under the LIVE key. -/
  | sweepPage (p : PartIx)
  /-- PART_HWR_CTL_ENABLE (R306): Enables the host write ring after its check. -/
  | partHwrCtlEnable (fn : Fn) (p : PartIx) (v : Word)
  /-- DOORBELL (R300): A doorbell write sets a ring TAIL or PART_HWR_HEAD, or is dropped and counted. -/
  | doorbell (p : PartIx) (off : BitVec 12) (v : Word) (whole : Bool)
  /-- IND_ADDR (R360): A write sets the indirect address, even while BUSY. -/
  | indAddr (fn : Fn) (i : IndPort) (v : Word)
  /-- IND_DATA_WRITE (R360): Sends a register write to the addressed location and auto-increments, or sets OVERRUN while BUSY. -/
  | indDataWrite (fn : Fn) (i : IndPort) (v : Word)
  /-- IND_DATA_READ (R360): Waits for BUSY to clear, then reads the addressed location and auto-increments. -/
  | indDataRead (fn : Fn) (i : IndPort)
  /-- INDIRECT_RESPONSE (R360): The acknowledgement or refusal of an indirect access clears BUSY and may set REFUSED. -/
  | indirectResponse (i : IndPort)
  /-- PARTIAL_BYTE_WRITE (R355): A write whose byte enables do not cover the dword is dropped and counted. -/
  | partialByteWrite (fn : Fn) (off : BitVec 26) (v : Word) (be : BitVec 4)
  /-- REGISTER_WRITE (R4): A write to a register without a row of its own takes the effect of its access code. -/
  | registerWrite (fn : Fn) (off : BitVec 26) (v : Word)
  /-- PART_IRQ_EN (R305): Enabling a cause whose STAT bit is set sends its MSI-X message. -/
  | partIrqEn (fn : Fn) (p : PartIx) (v : Word)
  /-- HUB_IRQ_EN (R370): Enabling a physical-function cause whose STAT bit is set sends its message. -/
  | hubIrqEn (fn : Fn) (v : Word)
  /-- SNAP_CTRL_TAKE (R368): Takes a contact sheet, incrementing SEQ and sending markers, or counts as IGNORED. -/
  | snapCtrlTake (fn : Fn) (v : Word)
  /-- MARKER (R399): A contact-sheet marker reaches an island and the island copies its counters to their holding registers. -/
  | marker (i : Island)
  /-- SNAP_ACK (R368): The last island's acknowledgement sets DONE and raises the SNAP interrupt. -/
  | snapAck (i : Island)
  /-- TRC_CTL_ENABLE (R404): Starts trace streaming after its check. -/
  | trcCtlEnable (fn : Fn) (p : PartIx) (v : Word)
  /-- TRACE_SAMPLE (R401): Every TRC_SAMPLE cycles a traced core emits a STALL record. -/
  | traceSample (c : CoreIx)
  /-- PART_SREC_CTL_ENABLE (R348): Enables step records after the check. -/
  | partSrecCtlEnable (fn : Fn) (p : PartIx) (v : Word)
  /-- PART_SECURE_CTL_ENABLE (R349): Starts securing and arms the first securing print. -/
  | partSecureCtlEnable (fn : Fn) (p : PartIx) (v : Word)
  /-- PART_PROOF_CTL_START (R351): Starts the proof: every station digests its records into the table. -/
  | partProofCtlStart (fn : Fn) (p : PartIx) (v : Word)
  /-- PROOF_DONE (R351): The proof completes, writing the table digest, MATCH, MISS and FIRST. -/
  | proofDone (p : PartIx) (ecc : Ecc)
  /-- PART_CREATE (R317): Creates partition p in OPEN with no grants and zero quotas. -/
  | partCreate (b : Mailbox)
  /-- PART_GRANT (R318): Grants cores, contexts, ranges, ports, stations or host-class cores to a partition. -/
  | partGrant (b : Mailbox)
  /-- PART_REVOKE (R318): Revokes granted resources from a partition. -/
  | partRevoke (b : Mailbox)
  /-- PART_QUOTA (R319): Sets a frame, host-page or mesh-weight quota. -/
  | partQuota (b : Mailbox)
  /-- PART_TEARDOWN (R332): Starts the fixer pass that ends with the partition ABSENT. -/
  | partTeardown (b : Mailbox)
  /-- SL_ATTACH (R330): Attaches safelight and logs it, permitting ciphertext reads of a sealed partition. -/
  | slAttach (b : Mailbox)
  /-- SL_DETACH (R330): Detaches safelight and logs it. -/
  | slDetach (b : Mailbox)
  /-- FW_COMMIT (R313): Makes the running slot PRIMARY and raises MINSVN to its SVN. -/
  | fwCommit (b : Mailbox)
  /-- FW_UPDATE (R313): Writes a new image to the idle slot and sets TRIAL. -/
  | fwUpdate (b : Mailbox) (img : Image)
  /-- PAGE_MAP (R320): Maps SPACE 2 frames or SPACE 3 host pages into a partition. -/
  | pageMap (b : Mailbox)
  /-- PAGE_UNMAP (R321): Unmaps pages, zeroing LPDDR6 frames before they return to the pool. -/
  | pageUnmap (b : Mailbox)
  /-- PAGE_ATTR (R321): Changes the RDONLY attribute of mapped pages. -/
  | pageAttr (b : Mailbox)
  /-- KEY_MODE (R324): Sets the link and host-tier key modes and label of a partition. -/
  | keyMode (b : Mailbox)
  /-- LOG_READ (R327): Returns one attestation log entry. -/
  | logRead (b : Mailbox)
  /-- FIXER_PASS_END (R332): After the last scrub step, counters and log are cleared and the partition becomes OPEN or ABSENT. -/
  | fixerPassEnd (p : PartIx)
  /-- VF_FLR (R303): A virtual-function FLR resets the function and scrubs its partition. -/
  | vfFlr (p : PartIx)
  /-- PF_FLR (R303): A physical-function FLR resets the function, clears VF Enable and scrubs every created partition. -/
  | pfFlr
  /-- HOT_RESET (R303): A hot reset or link down acts as PF FLR with link retraining. -/
  | hotReset
  /-- PERST_N_ASSERT (R392): Asserting PERST_N holds the device in reset; rails and sideband stay up. -/
  | perstNAssert
  /-- PERST_N_DEASSERT (R390): Deasserting PERST_N after POWER_GOOD runs ROM boot, identity, self-test, LPDDR6 training and readiness. -/
  | perstNDeassert (b : BootFacts)
  /-- CONFIGURATION_REQUEST (R302): A configuration request is answered with Request Retry Status until ready, then normally. -/
  | configurationRequest (fn : Fn) (off : BitVec 12) (w : Option Word) (sv : Bool)
  /-- COMPLETION (R301): A PCI Express completion arrives and ends a device read, or fails it as HOST. -/
  | completion (tag : Nat) (st : CplStatus) (host : HostDid)
  /-- COMPLETION_TIMEOUT (R301): A device request's completion timer expires and the request fails as HOST with 0xFF. -/
  | completionTimeout (tag : Nat)
  /-- POISONED_WRITE (R301): A received posted write with EP set is dropped and logged by AER. -/
  | poisonedWrite (fn : Fn)
  /-- DOE_REQUEST (R308): A DOE mailbox data object is served by the root of trust. -/
  | doeRequest (fn : Fn) (o : DoeObject)
  /-- DOE_ABORT (R308): A DOE Abort ends the mailbox's object within 1 s. -/
  | doeAbort (fn : Fn)
  /-- GET_MEASUREMENTS (R328): The SPDM responder reports measurement blocks and clears REATTEST. -/
  | getMeasurements (fn : Fn)
  /-- SEAL (R325): A tenant's SEAL request seals the partition and returns the sealed-read key, or is refused. -/
  | seal (p : PartIx) (policy : BitVec 8) (expect : BitVec 384)
  /-- IDE_KM (R307): IDE key management programs the keys of a selective IDE stream. -/
  | ideKm (fn : Fn) (k : Fin 2)
  /-- IDE_LOST (R326): An IDE stream leaves Secure; a REQUIRE_IDE partition's accesses are refused and logged. -/
  | ideLost (fn : Fn)
  /-- IDE_RESTORED (R326): An IDE stream returns to Secure and held traffic proceeds. -/
  | ideRestored (fn : Fn)
  /-- SET_ENDPOINT_ID (R309): The bus owner assigns the MCTP endpoint ID. -/
  | setEndpointId (eid : BitVec 8) (bus : SbBus)
  /-- MCTP_MESSAGE (R309): The sideband serves an MCTP control, PLDM or SPDM message. -/
  | mctpMessage (msg : Mctp)
  /-- SEALED_READ (R331): A physical-function read of a sealed data-bearing word returns ciphertext and latches ROT_SL. -/
  | sealedRead (loc : SealedLoc)
  /-- INPUT_START_THRESHOLD (R373): The input rises through 64 V and conversion starts. -/
  | inputStartThreshold
  /-- RAIL_IN_REGULATION (R374): A rail reaches regulation and the next starts; POWER_GOOD after the last. -/
  | railInRegulation (k : Fin 7)
  /-- INPUT_STOP_THRESHOLD (R375): The input falls through 62 V; POWER_GOOD is deasserted and every content is lost. -/
  | inputStopThreshold
  /-- RAIL_OUT_OF_REGULATION (R374): A rail leaves regulation, POWER_GOOD is deasserted and the rails shut down. -/
  | railOutOfRegulation (k : Fin 7)
  /-- TEMPERATURE_SAMPLE (R383): Every 100 us the sensors refresh and THERM_ALERT_N follows the threshold. -/
  | temperatureSample (t : Temps)
  /-- CAP_CONTROL (R379): Every 100 us power management compares input power with the cap and adjusts L. -/
  | capControl (mv : BitVec 17) (dw : BitVec 16)
  /-- PM_CAP (R380): A write sets the power cap, or is ignored with POWER_BUDGET or FORMAT_UNSUPPORTED. -/
  | pmCap (fn : Fn) (v : Word)
  /-- STANDBY_ENTER (R377): Setting PM_CTL.STANDBY starts standby entry, or is refused with BUSY. -/
  | standbyEnter (fn : Fn) (v : Word)
  /-- STANDBY_EXIT (R377): Clearing PM_CTL.STANDBY starts standby exit. -/
  | standbyExit (fn : Fn) (v : Word)
  /-- STANDBY_DONE (R377): Standby entry or exit completes, setting STBY_DONE and raising PWR. -/
  | standbyDone
  /-- MESH_WEIGHT_WINDOW (R320): A router's accounting window ends and new mesh weights take effect. -/
  | meshWeightWindow (cl : ClIx)
  /-- CORE_FAULT (R339): A core fault sends a loss report and remaps the core to a spare with all state at zero. -/
  | coreFault (c : CoreIx)
  /-- SRAM_FAULT (R339): An uncorrectable SRAM word moves its row to a spare row reading zero. -/
  | sramFault (a : SramRow)
  /-- SUBCHANNEL_FAULT (R339): A failed sub-channel poisons all its units and retires or goes PENDING. -/
  | subchannelFault (m : McIx) (j : Fin 16)
  /-- UNCOVERED_FAULT (R340): A fault without usable spare sets UNCOVERED and leaves the unit out of service. -/
  | uncoveredFault (u : FaultUnit)
  /-- SUBCHANNEL_RETIREMENT (R195): A pending retirement starts once 1,024 free frames exist and relocates the sub-channel. -/
  | subchannelRetirement (m : McIx)
  /-- LOSS_REPORT (R341): A loss report sets PART_FAULT.LOSS and aborts the open step. -/
  | lossReport (p : PartIx)
  /-- MOLT_WORSENING (R343): A unit reaches its worsening threshold and a molt becomes pending. -/
  | moltWorsening (u : FaultUnit)
  /-- MOLT (R344): A pending molt takes effect at the unit's boundary, copying state to a spare. -/
  | molt (u : FaultUnit)
  /-- SPARE_TEST (R337): Every 60 s the hub tests each spare and marks failed ones unusable. -/
  | spareTest (sp : Spare) (ok : Bool)
  /-- FLIT_SLOT (R278): A port transmitter starts a flit slot and sends a response, data, TAG, CTRL or IDLE flit under credit, replay and group rules. -/
  | flitSlot (lp : LpIx)
  /-- READ_CLEAR (R5): A register read of an RC field returns the value and clears the field, or a refused read is counted, with its own side effects. -/
  | readClear (fn : Fn) (off : BitVec 26) (be : BitVec 4) (ecc : Ecc)
  /-- HOST_CLASS_CORE_ACCESS (R190): A host-class core load, store or sync operation goes through the hub cache and is written back before its sync takes effect. -/
  | hostClassCoreAccess (h : Fin 16) (a : HccAccess)
  /-- ROT_DONE (R316): A root-of-trust command completes after its pages are acknowledged, setting ROT_STAT.DONE and raising the ROT_DONE cause. -/
  | rotDone (b : Mailbox)
  /-- DATA_LINK_UP (R302): The PCI Express link completes training with the host and the data link comes up, after which configuration requests arrive. -/
  | dataLinkUp
  /-- INPUT_REMOVED_AFTER_TRIP (R384): After a thermal trip, the input stays below 10 V for at least 1 s, releasing the trip so that a reapplied input can start the module. -/
  | inputRemovedAfterTrip
  deriving DecidableEq, Repr

end Sys2Proof
end

