-- ==== Sys2Proof/Decode.lean ====
section
/-! DEFINITION. The words of the opcode table, and the words of the core's instructions (R59). -/
namespace Sys2Proof

/-- The table of commands gives no row any bits: no word spells a command. -/
def decodeTableWord (_nbits _w : Nat) : Option Instr := none

/-! ### Instruction words (R59) -/
def wGuard (w : BitVec 64) : Guard := { gn := w.getLsbD 57, gp := w.extractLsb' 54 3 }
def wClass (w : BitVec 64) : Nat := fld w 63 58
def wOp (w : BitVec 64) : Nat := fld w 53 48
def wFmtA (w : BitVec 64) : FmtA :=
  { g := wGuard w, rd := w.extractLsb' 43 5, rs1 := w.extractLsb' 38 5, rs2 := w.extractLsb' 33 5, pd := w.extractLsb' 30 3, rsv := w.extractLsb' 0 30 }
def wFmtB (w : BitVec 64) : FmtB :=
  { g := wGuard w, rd := w.extractLsb' 43 5, rs1 := w.extractLsb' 38 5, imm := w.extractLsb' 6 32, pd := w.extractLsb' 3 3, rsv := w.extractLsb' 0 3 }
def wFmtC (w : BitVec 64) : FmtC :=
  { g := wGuard w, r1 := w.extractLsb' 43 5, target := w.extractLsb' 34 9, imm := w.extractLsb' 18 16, rsv := w.extractLsb' 0 18 }
def wFmtD (w : BitVec 64) : FmtD :=
  { g := wGuard w, rd := w.extractLsb' 43 5, rs1 := w.extractLsb' 38 5, imm := w.extractLsb' 18 20, rsv := w.extractLsb' 0 18 }
def wFmtE (w : BitVec 64) : FmtE :=
  { g := wGuard w, rd := w.extractLsb' 43 5, rs1 := w.extractLsb' 38 5, rs2 := w.extractLsb' 33 5, t := w.getLsbD 32, port := w.extractLsb' 29 3,
    mask := w.extractLsb' 21 8, entry := w.extractLsb' 12 9, rsv := w.extractLsb' 0 12 }
def wFmtF (w : BitVec 64) : FmtF :=
  { g := wGuard w, hi := w.extractLsb' 38 10, pa := w.extractLsb' 35 3, pb := w.extractLsb' 32 3, pc := w.extractLsb' 29 3, pd := w.extractLsb' 26 3,
    ps := w.extractLsb' 23 3, rsv := w.extractLsb' 0 23 }
def wFmtG (w : BitVec 64) : FmtG :=
  { g := wGuard w, rd := w.extractLsb' 43 5, rs1 := w.extractLsb' 38 5, rs2 := w.extractLsb' 33 5, pd := w.extractLsb' 30 3, cond := w.extractLsb' 27 3,
    timeout := w.extractLsb' 7 20, rsv := w.extractLsb' 0 7 }
def wFmtH (w : BitVec 64) : FmtH :=
  { g := wGuard w, mode := w.extractLsb' 46 2, ctx := w.extractLsb' 44 2, port := w.extractLsb' 41 3, rs2 := w.extractLsb' 36 5, t := w.getLsbD 35,
    rsv := w.extractLsb' 0 35 }
def wFmtJ (w : BitVec 64) : FmtJ := { g := wGuard w, imm := w.extractLsb' 32 16, rsv := w.extractLsb' 0 32 }
def wFmtM (w : BitVec 64) : FmtM :=
  { g := wGuard w, dA := w.extractLsb' 44 4, dB := w.extractLsb' 40 4, bank := w.extractLsb' 38 2, ca := w.getLsbD 37, cp := w.extractLsb' 34 3,
    rp := w.extractLsb' 29 5, ra := w.extractLsb' 24 5, rb := w.extractLsb' 19 5, rsv := w.extractLsb' 0 19 }
def wFmtN (w : BitVec 64) : FmtN :=
  { g := wGuard w, bank := w.extractLsb' 46 2, dst := w.getLsbD 45, dD := w.extractLsb' 41 4, ofmt := w.extractLsb' 39 2, epi := w.extractLsb' 36 3,
    dE := w.extractLsb' 32 4, rp := w.extractLsb' 27 5, roD := w.extractLsb' 22 5, roE := w.extractLsb' 17 5, side := w.extractLsb' 14 3,
    half := w.getLsbD 13, rsv := w.extractLsb' 0 13 }
def wFmtV (w : BitVec 64) : FmtV :=
  { g := wGuard w, dD := w.extractLsb' 44 4, dA := w.extractLsb' 40 4, dB := w.extractLsb' 36 4, dC := w.extractLsb' 32 4, fn := w.extractLsb' 26 6,
    rd := w.extractLsb' 21 5, rp := w.extractLsb' 16 5, roD := w.extractLsb' 11 5, roA := w.extractLsb' 6 5, roB := w.extractLsb' 1 5, sr := w.getLsbD 0 }
def wFmtW (w : BitVec 64) : FmtW :=
  { g := wGuard w, dS := w.extractLsb' 44 4, outP := w.extractLsb' 41 3, inP := w.extractLsb' 38 3, dir := w.extractLsb' 36 2, rp := w.extractLsb' 31 5,
    roS := w.extractLsb' 26 5, rsv := w.extractLsb' 0 26 }
def wFmtL (w : BitVec 64) : FmtL :=
  { g := wGuard w, dL := w.extractLsb' 44 4, dR := w.extractLsb' 40 4, ch := w.extractLsb' 38 2, rp := w.extractLsb' 33 5, roL := w.extractLsb' 28 5,
    roR := w.extractLsb' 23 5, rsv := w.extractLsb' 0 23 }
def wFmtQ (w : BitVec 64) : FmtQ :=
  { g := wGuard w, dN := w.extractLsb' 44 4, r1 := w.extractLsb' 39 5, imm := w.extractLsb' 19 20, word := w.extractLsb' 15 4, r2 := w.extractLsb' 10 5,
    rsv := w.extractLsb' 0 10 }

/-! ### The instruction of a word, by class and OP -/
/-- Class 0x00 (R69). -/
def decodeAlu (c : CoreIx) (r : RunId) (op : Nat) (f : FmtA) : Option Instr :=
  match op with
  | 0x00 => some (.add c r f) | 0x01 => some (.sub c r f) | 0x02 => some (.and_ c r f) | 0x03 => some (.or_ c r f)
  | 0x04 => some (.xor c r f) | 0x05 => some (.shl c r f) | 0x06 => some (.shr c r f) | 0x07 => some (.sra c r f)
  | 0x08 => some (.mul c r f) | 0x09 => some (.mulh c r f) | 0x0A => some (.mulhu c r f) | 0x0B => some (.min c r f)
  | 0x0C => some (.max c r f) | 0x0D => some (.minu c r f) | 0x0E => some (.maxu c r f) | 0x0F => some (.sel c r f)
  | 0x10 => some (.cmpEq c r f) | 0x11 => some (.cmpNe c r f) | 0x12 => some (.cmpLt c r f) | 0x13 => some (.cmpLtu c r f)
  | 0x14 => some (.cmpGe c r f) | 0x15 => some (.cmpGeu c r f) | 0x16 => some (.tagYng c r f) | 0x18 => some (.pand c r f)
  | 0x19 => some (.por c r f) | 0x1A => some (.pxor c r f) | 0x1B => some (.pnot c r f) | 0x20 => some (.mfs c r f)
  | _ => none
/-- Class 0x04 (R69). -/
def decodeImm (c : CoreIx) (r : RunId) (op : Nat) (f : FmtB) : Option Instr :=
  match op with
  | 0x00 => some (.addi c r f) | 0x02 => some (.andi c r f) | 0x03 => some (.ori c r f) | 0x04 => some (.xori c r f)
  | 0x05 => some (.shli c r f) | 0x06 => some (.shri c r f) | 0x07 => some (.srai c r f) | 0x08 => some (.muli c r f)
  | 0x10 => some (.cmpiEq c r f) | 0x11 => some (.cmpiNe c r f) | 0x12 => some (.cmpiLt c r f) | 0x13 => some (.cmpiLtu c r f)
  | 0x14 => some (.cmpiGe c r f) | 0x15 => some (.cmpiGeu c r f) | 0x1F => some (.li c r f)
  | _ => none
/-- Class 0x08 (R71). -/
def decodeBranch (c : CoreIx) (r : RunId) (op : Nat) (f : FmtC) : Option Instr :=
  match op with
  | 0x00 => some (.br c r f) | 0x01 => some (.jal c r f) | 0x02 => some (.jr c r f) | 0x03 => some (.loopI c r f)
  | 0x04 => some (.loopR c r f) | 0x05 => some (.brk c r f)
  | _ => none
/-- Class 0x0C (R73). -/
def decodeLocal (c : CoreIx) (r : RunId) (op : Nat) (f : FmtD) : Option Instr :=
  match op with
  | 0x00 => some (.ldLW c r f) | 0x01 => some (.ldLH c r f) | 0x02 => some (.ldLHs c r f) | 0x03 => some (.ldLB c r f)
  | 0x04 => some (.ldLBs c r f) | 0x08 => some (.stLW c r f) | 0x09 => some (.stLH c r f) | 0x0A => some (.stLB c r f)
  | _ => none
/-- Class 0x10 (R74). -/
def decodeToken (c : CoreIx) (r : RunId) (op : Nat) (f : FmtE) : Option Instr :=
  match op with
  | 0x00 => some (.match c r f) | 0x01 => some (.recv c r f) | 0x02 => some (.send c r f) | 0x03 => some (.sendT c r f)
  | 0x04 => some (.fin c r f) | 0x05 => some (.portLand c r f)
  | _ => none
/-- Class 0x14 (R80). -/
def decodeSteer (c : CoreIx) (r : RunId) (op : Nat) (f : FmtF) : Option Instr :=
  match op with
  | 0x00 => some (.steer c r f) | 0x01 => some (.steerP c r f) | 0x02 => some (.merge c r f) | 0x03 => some (.mergeAny c r f)
  | _ => none
/-- Class 0x18 (R82). -/
def decodeSync (c : CoreIx) (r : RunId) (op : Nat) (f : FmtG) : Option Instr :=
  match op with
  | 0x00 => some (.synFaa c r f) | 0x01 => some (.synLd c r f) | 0x02 => some (.synSt c r f) | 0x03 => some (.synWait c r f)
  | 0x04 => some (.synBar c r f)
  | _ => none
/-- Class 0x1C (R85). -/
def decodeContext (c : CoreIx) (r : RunId) (op : Nat) (f : FmtH) : Option Instr :=
  match op with
  | 0x00 => some (.ctxSw c r f) | 0x01 => some (.secSend c r f)
  | _ => none
/-- Class 0x20 (R98). -/
def decodeMatrix (c : CoreIx) (r : RunId) (w : BitVec 64) : Option Instr :=
  match wOp w with
  | 0x00 => some (.mmaH c r (wFmtM w)) | 0x01 => some (.mmaS c r (wFmtM w)) | 0x02 => some (.drain c r (wFmtN w))
  | 0x03 => some (.accSeq c r (wFmtM w)) | 0x04 => some (.accDflt c r (wFmtM w))
  | _ => none
/-- Class 0x24 (R104). -/
def decodeVector (c : CoreIx) (r : RunId) (w : BitVec 64) : Option Instr :=
  match wOp w with
  | 0x00 => some (.vop c r (wFmtV w)) | 0x01 => some (.vred c r (wFmtV w)) | 0x02 => some (.vcmp c r (wFmtV w))
  | 0x03 => some (.vexp c r (wFmtV w)) | 0x08 => some (.halo c r (wFmtW w))
  | _ => none
/-- Class 0x28 (R108). -/
def decodeRoller (c : CoreIx) (r : RunId) (op : Nat) (f : FmtL) : Option Instr :=
  match op with
  | 0x00 => some (.rlLd c r f) | 0x01 => some (.rlSt c r f) | 0x02 => some (.rlPf c r f)
  | _ => none
/-- Class 0x2C (R110). -/
def decodeDesc (c : CoreIx) (r : RunId) (op : Nat) (f : FmtQ) : Option Instr :=
  match op with
  | 0x00 => some (.dscLd c r f) | 0x01 => some (.dscWr c r f) | 0x02 => some (.dscRd c r f) | 0x03 => some (.dscTgx c r f)
  | _ => none
/-- Class 0x3C (R87). -/
def decodeDebug (c : CoreIx) (r : RunId) (op : Nat) (f : FmtJ) : Option Instr :=
  match op with
  | 0x00 => some (.nop c r f) | 0x01 => some (.trap c r f) | 0x02 => some (.bkpt c r f) | 0x03 => some (.mark c r f)
  | _ => none

/-- R59, R61: the instruction of a run that a word spells; none where CLASS is not in the table or OP is not defined for the class. -/
def decodeWofer (c : CoreIx) (r : RunId) (w : BitVec 64) : Option Instr :=
  match wClass w with
  | 0x00 => decodeAlu c r (wOp w) (wFmtA w)
  | 0x04 => decodeImm c r (wOp w) (wFmtB w)
  | 0x08 => decodeBranch c r (wOp w) (wFmtC w)
  | 0x0C => decodeLocal c r (wOp w) (wFmtD w)
  | 0x10 => decodeToken c r (wOp w) (wFmtE w)
  | 0x14 => decodeSteer c r (wOp w) (wFmtF w)
  | 0x18 => decodeSync c r (wOp w) (wFmtG w)
  | 0x1C => decodeContext c r (wOp w) (wFmtH w)
  | 0x20 => decodeMatrix c r w
  | 0x24 => decodeVector c r w
  | 0x28 => decodeRoller c r (wOp w) (wFmtL w)
  | 0x2C => decodeDesc c r (wOp w) (wFmtQ w)
  | 0x3C => decodeDebug c r (wOp w) (wFmtJ w)
  | _ => none

/-- R61: a word whose class or OP is not defined. -/
def wordUndefined (w : BitVec 64) : Bool := (decodeWofer 0 .setup w).isNone

end Sys2Proof
end

