-- ==== Sys2Proof/Config.lean ====
section
/-! DEFINITION. What the spec leaves open. Each constant here has no body: nothing can be proved of its value. -/
namespace Sys2Proof.Config

/-- A free value: the n-th value that the spec does not state (log 1). -/
opaque freeWord : Nat → BitVec 256
/-- Cycles of an island that pass between two observations of its count (R51, R394; log 5). -/
opaque elapsed : Nat → BitVec 64
/-- Random bits of the root of trust's CTR_DRBG (R310, R323; log 10). -/
opaque drbg : Nat → BitVec 256
/-- AES-256-GCM ciphertext and tag of one 32-bit word: key, nonce, additional data, word (R331; log 10). -/
opaque gcmWord : BitVec 256 → BitVec 96 → BitVec 64 → BitVec 32 → BitVec 160
/-- AES-256-GCM: key, nonce, additional data, plaintext; ciphertext and tag (R214, R282; log 10). -/
opaque gcm : BitVec 256 → BitVec 96 → List (BitVec 8) → List (BitVec 8) → List (BitVec 8) × BitVec 128
/-- The n-th SESSION key of the host tier: bits of the root of trust's DRBG (R323; log 10). -/
opaque sessionKey : Nat → BitVec 256
/-- HKDF with SHA-384 from the identity seed: info string bytes (R314, R323; log 10). -/
opaque hkdf : List (BitVec 8) → BitVec 256
/-- HKDF with SHA-384 from the identity seed to the private key of an ECDSA P-384 pair: info string bytes (R314; log 10). -/
opaque hkdfKey : List (BitVec 8) → BitVec 384
/-- The ECDSA P-384 signature by which one key certifies another (R314; log 10). -/
opaque certify : BitVec 384 → BitVec 384 → BitVec 768
/-- The helper data, the identity certificate and the firmware public key that the module ships with (R310, R311, R314; log 6). -/
opaque helperData : List (BitVec 8)
opaque idCert : List (BitVec 8)
opaque fwKey : BitVec 768
/-- The shared secret of static ECDH P-384 between this module's identity key and a far one (R284, FIXED; log 10). -/
opaque ecdhStatic : BitVec 768 → BitVec 384
/-- The shared secret of ECDH P-384 between the n-th ephemeral key that this module draws and a far one (R284, SESSION; log 10). -/
opaque ecdhFresh : Nat → BitVec 768 → BitVec 384
/-- HKDF with SHA-384 of a link's shared secret: the secret, the numbers that its info holds in their order; key and, above it, salt of the
direction that leaves the lower end (true) or the higher one (R284; log 10). -/
opaque linkKey : BitVec 384 → List Nat → Bool → BitVec 288
/-- The control code of a CTRL flit, by kind of message (R279 gives the field, no rule the codes; log 40). -/
opaque ctrlCode : Nat → BitVec 8
/-- The payload of a CTRL flit: kind of message and the values that it carries (R279 gives no layout; log 40). -/
opaque ctrlBody : Nat → List Nat → List (BitVec 8)
/-- The frame marker of a lane: lane number and frame count (R277 gives its width, no rule its bits; log 121). -/
opaque frameMarker : Nat → Nat → BitVec 20
/-- The unit index that stands for a block of the hub die in SRC and DST of a packet (R137 gives the field, no rule the numbers; log 19). -/
opaque hubUnit : Nat → BitVec 4
/-- The PLDM sensor ID of a sensor: temperatures of C0 to C3 and the hub die, input power, rail status, thermal trip (R309 names the sensors, no rule
their IDs; log 49). -/
opaque sensorId : Nat → BitVec 16
/-- The state that a PLDM state sensor reports: which sensor, whether its condition holds (R309; log 49). -/
opaque sensorState : Nat → Bool → BitVec 8
/-- The digest of the ROM, measurement 0x01 (R328; log 10). -/
opaque romDigest : BitVec 384
/-- The digest of the repair map's encoding, measurement 0x04 (R328, R337): the spec gives no byte layout of the map (log 10). -/
opaque mapDigest : List Nat → BitVec 384
/-- The digest of grants, key modes, label and policy, measurement 0x10: the spec gives no byte layout (R328; log 10). -/
opaque grantDigest : List Nat → BitVec 384

/-- The digest of the firmware image that the module ships with (R310; log 6). -/
opaque shippedDigest : BitVec 384

end Sys2Proof.Config
end

