-- ==== Sys2Proof/Machine/State.lean ====
section
/-! DEFINITION. The state of the device: every register, memory, queue, counter, mode and pin, as plain data; and the queue of
the commands that wait. -/
namespace Sys2Proof.Machine

/-- A memory: pairs of an address and a byte, addresses strictly rising, no byte equal to 0, which is what an unlisted
address reads as (log 3). -/
abbrev Mem := List Host.Cell

/-! ### Tokens and packets -/

/-- The payload of a fabric token (R31, R117 to R119). -/
inductive Payload
  /-- A scalar or control value. -/
  | word (w : Word)
  /-- A section token: MODE, NEW and SEQ; its CTX is the token's (R118). -/
  | sect (mode new : Nat) (seq : BitVec 16)
  /-- A tile: format (true = binary32), rows, columns, elements row-major little-endian. -/
  | tile (f32 : Bool) (rows cols : Nat) (bytes : List Byte)
  deriving DecidableEq, Repr

/-- A token: iteration tag, context field, payload. -/
structure Token where
  tag : Tag
  ctx : Nat
  body : Payload
  deriving DecidableEq, Repr

/-! ### The core (R57) -/

/-- What a store entry or a run holds for an in port: a value, or the landing slot (number and byte address) of a tile with
its shape. -/
inductive Held
  | word (w : Word)
  | tile (slot addr rows cols : Nat)
  deriving DecidableEq, Repr

/-- An entry of a hardware loop (R72). -/
structure Loop where
  start : BitVec 9
  last : BitVec 9
  left : Nat
  deriving DecidableEq, Repr

/-- A synchronisation operation (R82). -/
inductive SyncOp | faa | ld | st | wait | bar
  deriving DecidableEq, Repr

/-- What a run that waits for a sync answer waits for (R82, R83). -/
structure SyncWait where
  op : SyncOp
  rd : BitVec 5
  pd : BitVec 3
  obj : ObjRef
  timed : Bool
  tid : Nat
  deriving DecidableEq, Repr

/-- What a run is doing. -/
inductive Phase
  /-- It issues instructions. -/
  | issuing
  /-- It waits for the answer of a sync operation. -/
  | sync (w : SyncWait)
  /-- It executed `fin` (R79). -/
  | fin
  /-- It executed `ctx.sw` (R85, R86). -/
  | ctxSw (mode new : Nat)
  deriving DecidableEq, Repr

/-- A firing, or the setup run: the private state (R57, R62, R64). `uid` is the model's own: it names the run in the queues
that R41 waits for. -/
structure Run where
  uid : Nat
  ctx : Nat
  tg : Tag
  pc : BitVec 9
  s : Tbl Word
  p : BitVec 8
  loops : List Loop
  held : Tbl Held
  phase : Phase
  /-- The `e` of a NaN trap to raise at the next issue (R164). -/
  nan : Option (BitVec 16)
  deriving DecidableEq, Repr

/-- The state of one landing slot (R76). -/
inductive Slot
  | free
  /-- Its token is in the matching store. -/
  | stored
  /-- A firing holds it. -/
  | owned (uid : Nat)
  /-- Its firing has retired; accesses issued before access number `seq` may still read it. -/
  | draining (seq : Nat)
  deriving DecidableEq, Repr

/-- A landing ring (R76): base address, format, state of each slot. -/
structure Ring where
  base : Nat
  f32 : Bool
  slots : List Slot
  deriving DecidableEq, Repr

/-- A station entry by number: the partition and the entry. -/
structure StnRef where
  part : Nat
  entry : Nat
  deriving DecidableEq, Repr

/-- What the core holds for one context. -/
structure CtxState where
  stn : Option StnRef
  rank : Nat
  ncores : Nat
  window : Nat
  /-- s24 to s31. -/
  shared : Tbl Word
  /-- d0 to d15. -/
  descs : Tbl Desc
  /-- The setup run has not taken place since the station was enabled (R62). -/
  needSetup : Bool
  /-- The setup run in progress. -/
  setup : Option Run
  /-- The mask and the entry that `match` declared (R75). -/
  mtch : Option (BitVec 8 × BitVec 9)
  rings : Tbl Ring
  seed : BitVec 64
  step : Word
  deriving DecidableEq, Repr

/-- A context at reset (log 4: DESIGN CHOICE). -/
def CtxState.reset : CtxState :=
  { stn := none, rank := 0, ncores := 0, window := 0, shared := [], descs := [], needSetup := false, setup := none,
    mtch := none, rings := [], seed := 0, step := 0 }

/-- The ordered mode of a bank (R43): base, run length, stride, expected tag; the context whose `acc.seq` set it and whose firings move E
(R56; log 110). -/
structure Order where
  b : Tag
  l : Nat
  s : Nat
  e : Tag
  ctx : Nat
  deriving DecidableEq, Repr

/-- An accumulator bank: its values at 32 m + n (unlisted: +0.0), its mode, and in default mode its owner. -/
structure Bank where
  vals : List Word
  order : Option Order
  owner : Option Nat
  deriving DecidableEq, Repr

def Bank.reset : Bank := { vals := [], order := none, owner := none }

/-- An entry of a matching store (R123). -/
structure Entry where
  tag : Tag
  ctx : Nat
  held : Held
  deriving DecidableEq, Repr

/-- An outstanding access to data SRAM (R95): its number in issue order, its run and context, its byte ranges (start, length); for a roller
load, its tier (SPACE 1 to 3, else 0) and channel (R210). -/
structure Access where
  seq : Nat
  uid : Nat
  ctx : Nat
  ranges : List (Nat × Nat)
  tier : Nat
  ch : Nat
  deriving DecidableEq, Repr

/-- A descriptor as an instruction names it: with its effective base address and problem index (R52, R92). -/
structure View where
  d : Desc
  base : Int
  p : Nat
  deriving DecidableEq, Repr

/-- An entry of the matrix queue (R98, R101). `side` is what is left of a drain whose side token goes to the port of its tile token. -/
inductive MxOp
  | mma (f32 : Bool) (bank : Nat) (clr : Bool) (a b : View)
  | drain (bank : Nat) (dst : Option View) (port : Nat) (ofmt epi : Nat) (e : Option View) (side : Nat) (half : Bool) (p : Nat)
  | side (port : Nat) (t : Token)
  deriving DecidableEq, Repr

/-- An entry of the vector queue (R104 to R107). A `halo` says whether it has sent, and holds the payload of its in port once its firing has
retired with it (R77). -/
inductive VxOp
  | vop (fn : Nat) (d a : View) (b c : Option View) (key : Word) (sr : Bool)
  | vred (fn : Nat) (d a : View) (i : Option View) (sr : Bool)
  | vcmp (d a m : View) (rd : BitVec 5)
  | vexp (d a m : View) (rd : BitVec 5)
  | halo (s : View) (outP inP dir : Nat) (sent : Bool) (got : Option Held)
  deriving DecidableEq, Repr

/-- What a queued instruction carries from its issue: access number, run, slot, context, word address, tag, layer (s31); partition, rank and number
of cores of the station, which it keeps when the entry is disabled before it is carried out (R89, R90). -/
structure Origin where
  seq : Nat
  uid : Nat
  run : RunId
  ctx : Nat
  pc : BitVec 9
  tag : Tag
  layer : BitVec 16
  part : Nat
  rank : Nat
  ncores : Nat
  deriving DecidableEq, Repr

structure MxItem where
  o : Origin
  op : MxOp
  deriving DecidableEq, Repr

structure VxItem where
  o : Origin
  op : VxOp
  deriving DecidableEq, Repr

/-- A roller operation (R108). -/
inductive RlOp | ld | st | pf
  deriving DecidableEq, Repr

/-- A roller request of a core (R108, R109). -/
structure RlReq where
  o : Origin
  op : RlOp
  l : View
  r : View
  deriving DecidableEq, Repr

/-- A NaN report on its way to the record block (R163, R184). -/
structure NanReport where
  part : Nat
  uid : Nat
  slot : Nat
  ctx : Nat
  pc : BitVec 9
  tag : Tag
  vec : Bool
  elem : Nat
  wait : Bool
  deriving DecidableEq, Repr

/-- The answer to a NaN report on its way to the core (R164). -/
structure NanAnswer where
  uid : Nat
  slot : Nat
  elem : Nat
  recorded : Bool
  halt : Bool
  deriving DecidableEq, Repr

/-- A token at an out port and the run that sent it (R41, R68). -/
structure OutTok where
  uid : Nat
  tok : Token
  deriving DecidableEq, Repr

/-- A context switch in progress (R86). -/
structure CtxSwitch where
  mode : Nat
  new : Nat
  seq : BitVec 16
  deriving DecidableEq, Repr

/-- What a trap holds stopped (R89): the run that trapped and the cause. -/
structure TrapHold where
  run : RunId
  cause : Nat
  deriving DecidableEq, Repr

/-- The answer of a request: a value, or a refusal code (R140). -/
inductive Answer
  | val (w : Word)
  | refused (code : Nat)
  deriving DecidableEq, Repr

/-- A sync answer on its way: the run, the transaction, the value or the refusal code. -/
structure SyncRsp where
  uid : Nat
  op : SyncOp
  tid : Nat
  ans : Answer
  deriving DecidableEq, Repr

/-- A core (R57). Registers of its indirect page stand in `regs`, by offset (R90, R126, R162, R395). -/
structure Core where
  regs : Regs
  active : Nat
  ctxs : Tbl CtxState
  firings : Tbl Run
  banks : Tbl Bank
  sram : Mem
  /-- Program memory: the word at 512 ctx + w (R18). -/
  prog : Tbl (BitVec 64)
  stores : Tbl (List Entry)
  arrivals : Tbl (List Token)
  outs : Tbl OutTok
  accs : List Access
  nextSeq : Nat
  nextUid : Nat
  mq : List MxItem
  vq : List VxItem
  rq : Tbl (List RlReq)
  switching : Option CtxSwitch
  /-- The switches of firings that retired by `ctx.sw` while another was in progress, oldest first (R85, R86). -/
  switchNext : List CtxSwitch
  traps : Tbl TrapHold
  /-- The copy of PART_NAN_CTL.HALT (R164). -/
  halt : Bool
  reports : List NanReport
  answers : List NanAnswer
  /-- The step-overflow reports on their way: partition and step number (R161, R238). -/
  overflows : List (Nat × BitVec 16)
  /-- Sync answers on their way to the core (R84, R259). -/
  syncRsps : List SyncRsp
  /-- Residue retries seen (R335, R343). -/
  retries : Nat
  /-- Out of service for want of a spare (R340). -/
  dead : Bool
  deriving DecidableEq, Repr

def Core.reset : Core :=
  { regs := [], active := 0, ctxs := [], firings := [], banks := [], sram := [], prog := [], stores := [], arrivals := [],
    outs := [], accs := [], nextSeq := 0, nextUid := 0, mq := [], vq := [], rq := [], switching := none, switchNext := [], traps := [],
    halt := false, reports := [], answers := [], overflows := [], syncRsps := [], retries := 0, dead := false }

/-! ### Synchronisation (R253 to R266) -/

/-- Who asks for a sync operation (R253, R256). -/
inductive Requester
  | core (c uid : Nat)
  | ring (cl ch : Nat)
  | hcc (h : Nat)
  /-- A register write to the object's value through the endpoint (R256). -/
  | reg (fn : Fn)
  /-- The far end of a link. -/
  | far (lp : Nat)
  deriving DecidableEq, Repr

/-- A request. `seq` is the core's access number at issue (R257); `local` says that core and hive share a cluster. -/
structure SyncReq where
  src : Requester
  pid : Nat
  op : SyncOp
  obj : ObjRef
  arg : Word
  cond : BitVec 3
  tid : Nat
  seq : Nat
  near : Bool
  deriving DecidableEq, Repr

/-- A waiter entry (R255): the request and, for a barrier, the generation. -/
structure Waiter where
  q : SyncReq
  gen : Nat
  deriving DecidableEq, Repr

/-- What a hive or a link port keeps for its objects: waiter entries in order, requests that arrived, requests held for an
entry (R262), cancels that arrived (R260). -/
structure SyncState where
  waiters : List Waiter
  arrived : List SyncReq
  held : List SyncReq
  cancels : List (Requester × Nat)
  deriving DecidableEq, Repr

def SyncState.reset : SyncState := { waiters := [], arrived := [], held := [], cancels := [] }

/-! ### The packet mesh (R137 to R142) -/

/-- A source or destination of packets. -/
inductive Node
  | core (c : Nat)
  | cluster (cl : Nat)
  | mc (m : Nat)
  | lp (l : Nat)
  /-- A block of the hub die: 0 the PCI Express endpoint, 1 the root of trust, 2 the partition blocks, 16 + h host-class core h. -/
  | hub (b : Nat)
  deriving DecidableEq, Repr

/-- A gradient packet (R227): record address, packet index, step, four rows of the binary16 tile frame. -/
structure GradPkt where
  pid : Nat
  addr : Nat
  q : Nat
  step : BitVec 16
  bytes : List Byte
  deriving DecidableEq, Repr

/-- What a packet carries. -/
inductive Body
  | regWrite (a v : Word)
  | regRead (a : Word)
  | ack
  | data (v : Word)
  | refusal (code : Nat)
  | sync (q : SyncReq)
  | cancel (obj : ObjRef) (src : Requester) (tid : Nat)
  /-- The answer of an object to a request (R84, R260). -/
  | syncRsp (src : Requester) (op : SyncOp) (tid : Nat) (a : Answer)
  /-- A read of a page by a roller channel (R140, R194). -/
  | pageRead (cl ch page : Nat)
  /-- A gradient packet on its way to a station (R227). -/
  | grad (g : GradPkt)
  /-- Link payload (R279): the bytes of the packet that crosses the link, header flit first. -/
  | link (bytes : List Byte)
  /-- An interrupt message (R137): vector of the packet's partition, or of the physical function. -/
  | interrupt (vec : Nat)
  deriving DecidableEq, Repr

structure Packet where
  pid : Nat
  src : Node
  dst : Node
  tid : Nat
  body : Body
  deriving DecidableEq, Repr

/-! ### Trace (R401 to R403) -/

structure TraceRec where
  part : Nat
  evt : Nat
  ctx : Nat
  slot : Nat
  place : Nat
  cyc : Word
  seq : Nat
  tag : Tag
  pc : Nat
  info : Nat
  args : List Word
  deriving DecidableEq, Repr

/-! ### The roller (R205 to R212) -/

/-- A roller failure (R211): code, detail, tier, page and sector; the address and whether it was written to. -/
structure RlFail where
  code : Nat
  detail : Nat
  tier : Nat
  page : Nat
  sector : Nat
  addr : Nat
  wr : Bool
  deriving DecidableEq, Repr

/-- A roller request or ring entry in progress: source `a`, destination `b`; what it still awaits and what has come. -/
structure Job where
  /-- The requesting core; none for the ring. -/
  core : Option Nat
  pid : Nat
  /-- What the request carries from its issue; for a ring entry only `seq` (the index of the entry) has a meaning. -/
  o : Origin
  op : RlOp
  /-- OP 0x1 of R207: zeros are written. -/
  fill : Bool
  a : View
  b : View
  /-- SYNC_EN, IRQ, SYNC_NAME and SYNC_ADD of a ring entry. -/
  sync : Option (Word × Word)
  irq : Bool
  /-- The byte ranges below the core that are being read; a container's payload is read after its header (R204). -/
  reads : List (Nat × Nat)
  body : Bool
  /-- The host sectors that the write covers only in part have been asked for (R215). -/
  merged : Bool
  /-- LPDDR6 pages whose read has not been answered (R140, R194). -/
  pages : List Nat
  /-- Host tags whose completion has not arrived (R301). -/
  tags : List Nat
  /-- PARAM records fetched, in walk order (R225). -/
  params : List (List Byte)
  /-- A ring entry whose bytes are written (R208). -/
  done : Bool
  /-- A page that it touches was not in the roller's translation cache (R198). -/
  miss : Bool
  /-- Its sync operation has been sent; the answer once it has come (R208, R254). -/
  synSent : Bool
  syn : Option Answer
  deriving DecidableEq, Repr

/-- A roller channel: the source served last (a core's place in the cluster, 32 for the ring) and the request in progress. -/
structure Chan where
  last : Nat
  job : Option Job
  deriving DecidableEq, Repr

/-- A channel at reset (log 13: DESIGN CHOICE). -/
def Chan.reset : Chan := { last := 32, job := none }

/-! ### The cluster (R112 to R136) -/

/-- A complete pair of a steering unit (R129): its control token, its data token, from IN_B, the output slot. -/
structure SPair where
  c : Option Token
  d : Token
  fromB : Bool
  out : Nat
  deriving DecidableEq, Repr

/-- A steering unit (R127 to R130): arrival queues of its inputs (0 control, 1 IN_D, 2 IN_B), its stores (true: a token of IN_B), its
results by output slot, contexts in which it has stopped. -/
structure SUnit where
  inq : Tbl (List Token)
  ctl : List Token
  data : List (Bool × Token)
  out : List (Nat × Token)
  /-- Complete pairs that wait for their output, in the order in which they completed (R129). -/
  ready : List SPair
  stopped : BitVec 4
  deriving DecidableEq, Repr

def SUnit.reset : SUnit := { inq := [], ctl := [], data := [], out := [], ready := [], stopped := 0 }

/-- A switch in step 2 of a section switch (R131, R132): the partition of the section route, the mode asked, the old and the new context, SEQ. -/
structure SwSwitch where
  pid : Nat
  mode : Nat
  old : Nat
  new : Nat
  seq : BitVec 16
  deriving DecidableEq, Repr

/-- An access of an indirect port that is in flight (R360): the function, whether it reads, the bytes the read selects (R355), and the answer once
it has come. -/
structure IndFlight where
  fn : Fn
  read : Bool
  be : BitVec 4
  tid : Nat
  ans : Option Answer
  deriving DecidableEq, Repr

/-- An indirect port (R358). `held`: the reads of IND_DATA that wait for BUSY to be 0, the first to come first (R360). -/
structure IndState where
  addr : Word
  stat : Word
  flight : Option IndFlight
  held : List (Fn × BitVec 4)
  deriving DecidableEq, Repr

def IndState.reset : IndState := { addr := 0, stat := 0, flight := none, held := [] }

/-- A cluster. Registers of its indirect page stand in `regs`, by offset; queues are keyed by input side, net and slot. -/
structure Cluster where
  regs : Regs
  queues : Tbl (List Token)
  cross : Tbl (List Token)
  rot : Tbl Nat
  units : Tbl SUnit
  sw : Option SwSwitch
  staging : Mem
  chans : Tbl Chan
  hive : SyncState
  trace : List TraceRec
  dropped : Nat
  /-- The roller's translation cache (R198): partition, space, page; most recent first. -/
  xlate : List (Nat × Nat × Nat)
  /-- Rings stopped at an entry that failed (R207, R211). -/
  ringBad : BitVec 4
  /-- Rings whose ENABLE has been written 0 and clears when their entry in progress ends (R209). -/
  ringStop : BitVec 4
  /-- The words that their control registers then take (R363). -/
  ringNext : Tbl Word
  /-- The mesh weights in effect at its router, by partition (R319, R320). -/
  weights : Tbl Nat
  /-- The doorway's indirect port (R354). -/
  door : IndState
  cyc : BitVec 64
  deriving DecidableEq, Repr

def Cluster.reset : Cluster :=
  { regs := [], queues := [], cross := [], rot := [], units := [], sw := none, staging := [], chans := [], hive := SyncState.reset,
    trace := [], dropped := 0, xlate := [], ringBad := 0, ringStop := 0, ringNext := [], weights := [], door := IndState.reset, cyc := 0 }

/-- What leaves the module (log 9). (log 9: DESIGN CHOICE.) -/
inductive Msg
  /-- An MSI-X message of a function: vector, address, data (R305). -/
  | msix (fn : Fn) (vec : Nat) (addr : BitVec 64) (data : Word)
  /-- The completion of a read of a function. -/
  | readData (fn : Fn) (v : Word)
  /-- A memory read request of a partition's function: tag, address, bytes (R301). -/
  | hostRead (p tag addr len : Nat)
  /-- A sector written to the host: its address and its record's, the ciphertext and the 32 bytes of the record (R214). -/
  | hostSector (p addr tagAddr : Nat) (cipher record : List Byte)
  /-- A plain posted write to the host (R306). -/
  | hostWrite (p addr : Nat) (bytes : List Byte)
  /-- A flit of a link port. -/
  | flit (lp : Nat) (f : Flit)
  /-- LANE_FAULT in the frame markers of a port's transmit spare lane (R288). -/
  | marker (lp lane : Nat)
  /-- The answer to a configuration request: Request Retry Status, or the word read or written (R302). -/
  | cfg (fn : Fn) (w : Option Word)
  /-- A DOE data object of a function (R308). -/
  | doe (fn : Fn) (o : DoeObject)
  /-- A packet of a sideband message (R309): whether it is its first, whether its last, its number modulo 4, up to 64 bytes of the message. -/
  | mctp (som eom : Bool) (seq : Nat) (bytes : List Byte)
  /-- A Device Readiness Status message (R302). -/
  | readiness
  deriving DecidableEq, Repr

/-! ### Functions, ports, partitions, the hub -/

/-- A PCI Express function: configuration words and MSI-X table words that differ from reset, pending MSI-X vectors (R295, R305). -/
structure FnState where
  cfg : Regs
  msix : Regs
  pend : List Nat
  /-- The IDE stream (R307): key sets that hold keys, and the Secure state. -/
  ide : BitVec 2
  secure : Bool
  /-- The object that the DOE mailbox holds, the SPDM version negotiated, 0x12 or 0x13, or 0 (R308). -/
  doe : Option DoeObject
  spdm : Nat
  /-- A reset of the function is not yet complete (R303). -/
  flr : Bool
  /-- Posted writes that wait until the function may send requests (R301). -/
  held : List Msg
  deriving DecidableEq, Repr

def FnState.reset : FnState := { cfg := [], msix := [], pend := [], ide := 0, secure := false, doe := none, spdm := 0, flr := false, held := [] }

/-- What a partition has been granted (R318): cores by cluster, contexts, staging ranges by cluster, link ports, update stations,
host-class cores. -/
structure Grants where
  cores : Tbl (BitVec 32)
  ctxs : BitVec 4
  staging : Tbl (BitVec 128)
  ports : BitVec 16
  stations : BitVec 16
  hccs : BitVec 16
  deriving DecidableEq, Repr

def Grants.none_ : Grants := { cores := [], ctxs := 0, staging := [], ports := 0, stations := 0, hccs := 0 }

/-- A host-tier key (R217, R323): a SESSION key is one of its own, a FIXED key is the same for the same label and epoch. Its bits
are the root of trust's. -/
inductive HKey
  | session (n : Nat)
  | fixed (label : BitVec 128) (epoch : BitVec 8)
  deriving DecidableEq, Repr

/-- The key of a slot with its write counter and load number (R214). -/
structure KeySlot where
  key : HKey
  ctr : BitVec 64
  load : Word
  deriving DecidableEq, Repr

/-- A print that runs (R247 to R249): the manifest, until it is written; the records not yet copied, by station, region and index; the regions whose
completion record is not yet posted; the bytes written to host pages; of a print to a peer, the bytes that do not yet fill a flit and the
flits made. -/
structure PrintRun where
  head : Option (List Byte)
  todo : List (Nat × Nat × Nat)
  regions : List (Nat × Nat)
  pos : Nat
  rest : List Byte
  flits : Nat
  deriving DecidableEq, Repr

/-- The step block of a partition (R237, R238, R240): completion messages on their way and received, the wait of step 3, forcing
messages on their way and kept, the decision (step, COMMIT, by force) that has been sent, the controllers that have still to apply it, the
acknowledgements on their way and received. -/
structure StepBlock where
  compMsgs : BitVec 16
  comp : BitVec 16
  forces : List (BitVec 16)
  forced : Bool
  forcedNext : Bool
  decision : Option (BitVec 16 × Bool)
  due : BitVec 16
  ackMsgs : BitVec 16
  acked : BitVec 16
  /-- The decided step is the last: ABORT leaves no step open (R240). -/
  closing : Bool
  /-- Latched when the step opens: loss-scale exponent, hyperparameters, the digests of R346. -/
  lse : BitVec 8
  hp : List Word
  prog : BitVec 384
  inp : BitVec 384
  topo : BitVec 384
  /-- Step records written since ENABLE (R346). -/
  seq : Word
  /-- Securing (R349): the armed print is its own; commits since the secured step. -/
  secPrint : Bool
  secCount : Nat
  /-- The print that runs (R247). -/
  print : Option PrintRun
  deriving DecidableEq, Repr

def StepBlock.reset : StepBlock :=
  { compMsgs := 0, comp := 0, forces := [], forced := false, forcedNext := false, decision := none, due := 0, ackMsgs := 0, acked := 0,
    closing := false, lse := 0, hp := [], prog := 0, inp := 0, topo := 0, seq := 0, secPrint := false, secCount := 0, print := none }

/-- A partition: its register block, its virtual function, its indirect port, its grants, its page tables (SPACE 2 and SPACE 3, by page;
R197), its host-tier keys, its step block, its host write ring. -/
structure Part where
  regs : Regs
  fn : FnState
  ind : IndState
  grants : Grants
  pt2 : Tbl (BitVec 128)
  pt3 : Tbl (BitVec 128)
  slots : Tbl KeySlot
  label : BitVec 128
  step : StepBlock
  /-- The host write ring (R306): the base that ENABLE latched (R365), SEQ of the last record, PHASE of the next. -/
  hwrBase : Nat
  hwrSeq : BitVec 16
  hwrPhase : Bool
  /-- The trace ring in SPACE 2 (R403): the record written next, SEQ of the last record, PHASE of the next. -/
  trcAt : Nat
  trcSeq : BitVec 16
  trcPhase : Bool
  /-- The attestation log (R327): the entries kept, oldest first; the number of entries made; the digest. -/
  log : List (BitVec 128)
  logCount : Nat
  logDigest : BitVec 384
  /-- The seal policy; the sealed-read key, salt and counter (R325, R331). -/
  policy : BitVec 8
  sealKey : BitVec 256
  sealSalt : BitVec 32
  sealCtr : BitVec 64
  /-- The fixer pass that runs: true for a teardown (R332). -/
  pass : Option Bool
  /-- Reads of host sectors by the print (0), the proof (1), the sweep of page n (2 + n): the tags that have not come back (R301). -/
  reads : Tbl (List Nat)
  deriving DecidableEq, Repr

def Part.reset : Part :=
  { regs := [], fn := FnState.reset, ind := IndState.reset, grants := Grants.none_, pt2 := [], pt3 := [], slots := [], label := 0,
    step := StepBlock.reset, hwrBase := 0, hwrSeq := 0, hwrPhase := true, trcAt := 0, trcSeq := 0, trcPhase := true, log := [], logCount := 0, logDigest := 0, policy := 0,
    sealKey := 0, sealSalt := 0, sealCtr := 0, pass := none, reads := [] }

/-- What waits for a flit slot: class (true: the response class), type, INFO, payload before encryption (R279). -/
structure LinkItem where
  vc : Bool
  typ : Nat
  info : BitVec 48
  payload : List Byte
  deriving DecidableEq, Repr

/-- The key and the salt of one direction (R282, R284). -/
structure DirKey where
  key : BitVec 256
  salt : BitVec 32
  deriving DecidableEq, Repr

/-- What a CTRL flit says (R279): identity, this end's part in a key agreement, a lane fault. -/
inductive Ctrl
  /-- IDENT (R289). -/
  | ident (node domain port : Nat)
  /-- A key agreement (R284): FIXED, then the session number, else the number of the ephemeral key. -/
  | share (fixed : Bool) (n : Nat)
  /-- LANE_FAULT (R288). -/
  | laneFault (lane : Nat)
  deriving DecidableEq, Repr

/-- Where a session stands (R284, R285): the key slots of each direction, and whether a rekey runs, for which the answer is awaited. -/
structure LinkKeys where
  tx : Tbl DirKey
  rx : Tbl DirKey
  /-- This end's part of the agreement that runs: its session number, or the number of its ephemeral key; none: counter 2 is spent. -/
  mine : Option Nat
  /-- The receive slot whose key no group has used yet. -/
  rxNew : Option Nat
  rekey : Bool
  /-- A rekey that the port starts on its own waits until sparing ends (R285). -/
  due : Bool
  /-- The group counter of the transmit direction (R282). -/
  ctr : BitVec 64
  /-- The other slot holds a key that no group has used yet; the SEQ of the TAG flit of the first group under the new key (R285). -/
  fresh : Bool
  firstTag : Option Nat
  deriving DecidableEq, Repr

/-- No session. -/
def LinkKeys.none_ : LinkKeys :=
  { tx := [], rx := [], mine := none, rxNew := none, rekey := false, due := false, ctr := 0, fresh := false, firstTag := none }

/-- A sum, a round or a result held for one record of a reduction group (R269, R270): round step, tag, the binding of the local tile,
the 32 × 32 elements. -/
structure RedEntry where
  step : BitVec 16
  tag : Tag
  bind : Nat
  elems : List Word
  deriving DecidableEq, Repr

/-- A reduction group's store entries (R270): local tiles that wait for the partial of the rank below, partials that wait for the
local tile, results that wait for delivery; the flits of a partial or result under assembly. -/
structure RedGroup where
  own : List RedEntry
  parts : List RedEntry
  results : List RedEntry
  /-- Records of the open round already contributed, by tag and binding; those of them whose result has not come back. -/
  used : List (Tag × Nat)
  await : List (Tag × Nat)
  /-- Sums and results that wait for NEXT and for PREV to carry the partition's session (R273). -/
  toNext : List RedEntry
  toPrev : List RedEntry
  /-- What ENABLE latched (R268): by binding, the region's first byte and the pitch of its records. -/
  latch : Tbl (Nat × Nat)
  deriving DecidableEq, Repr

def RedGroup.reset : RedGroup := { own := [], parts := [], results := [], used := [], await := [], toNext := [], toPrev := [], latch := [] }

/-- A link port. Registers stand in `regs`, by offset. -/
structure Lnk where
  regs : Regs
  sync : SyncState
  /-- Tokens at the reduction sinks, by group × 8 + binding (R114, R268). -/
  sinkq : Tbl (List Token)
  /-- What waits for a flit slot. -/
  txq : List LinkItem
  /-- Flits sent and not yet acknowledged, oldest first (R280), and from which of them on they are to be resent. -/
  replay : List Flit
  resend : Option Nat
  /-- Times that flits not yet acknowledged have been resent, by SEQ (R281). -/
  resends : Tbl Nat
  /-- Next SEQ to send, next SEQ to take (R280). -/
  txSeq : Nat
  rxSeq : Nat
  ackDue : Bool
  nakDue : Bool
  /-- Credit to send in each class, credits to return in each class (R281). -/
  cred0 : Nat
  cred1 : Nat
  owed0 : Nat
  owed1 : Nat
  /-- Encrypted flits of the open transmit group, their additional data and plaintext; the flits of the receive group that is not yet verified
  (R282, R283). -/
  grpTx : Nat
  grpAad : List Byte
  grpPlain : List Byte
  grpRx : List Flit
  keys : LinkKeys
  /-- The open transmit group holds a sync flit, so that it is closed at once (R283). -/
  grpSync : Bool
  /-- Operations forwarded over the link that await their answer, by the TID that they carry there (R263); the next TID. -/
  fwd : Tbl SyncReq
  nextTid : Nat
  /-- Bytes of a mesh packet, a partial, a result of which the last flit has not come (R279). -/
  frag : List Byte
  redPart : List Byte
  redRes : List Byte
  /-- A mesh packet, print data or a partial that has been verified and waits for room (R292). -/
  held : List Flit
  /-- The receive lane that is being moved to the spare, until lock is regained (R288); its fault was declared, so flits are discarded. -/
  fault : Option Nat
  deaf : Bool
  /-- The spare lane failed its self-test: bit 0 receive, bit 1 transmit (R334, R337). -/
  spareBad : BitVec 2
  /-- The data lane whose symbols the transmit spare carries (R288). -/
  txLane : Option Nat
  /-- Entries into RETRAIN since the port was enabled (R286). -/
  retrains : Nat
  /-- Print receive: entries of the manifest, bytes of the print as far as the manifest has come (R248, R292). -/
  prxN : Nat
  prxLen : Nat
  /-- The flits of the frame that fills, the count of frames since alignment, the codewords that the lanes carried last (4: the spare) (R277). -/
  frame : List Flit
  frames : Nat
  lanes : Tbl (List (BitVec 10))
  cyc : BitVec 64
  groups : Tbl RedGroup
  deriving DecidableEq, Repr

def Lnk.reset : Lnk :=
  { regs := [], sync := SyncState.reset, sinkq := [], txq := [], replay := [], resend := none, resends := [], txSeq := 0, rxSeq := 0,
    ackDue := false, nakDue := false, cred0 := 128, cred1 := 128, owed0 := 0, owed1 := 0, grpTx := 0, grpAad := [], grpPlain := [], grpRx := [],
    keys := LinkKeys.none_, grpSync := false, fwd := [], nextTid := 0, frag := [],
    redPart := [], redRes := [], held := [], fault := none, deaf := false, spareBad := 0, txLane := none, retrains := 0,
    prxN := 0, prxLen := 0, frame := [], frames := 0, lanes := [], cyc := 0, groups := [] }

/-- A gradient tile in the arrival buffer (R229): record address, step, which packets have come, the tile frame. -/
structure GradTile where
  addr : Nat
  step : BitVec 16
  got : BitVec 8
  frame : Mem
  deriving DecidableEq, Repr

/-- Where an update stands between two commands (R235, R244): live SPLIT state on its way into the arrival buffer; the kernel in progress,
with the live slot and its run (log 25); shadow SPLIT state on its way out, with the LPDDR6 writes that follow it in order. -/
inductive WorkPhase
  | fetch
  | kernel (live : Nat) (run : Core)
  | store (ws : List (Nat × List Byte))
  deriving DecidableEq, Repr

/-- The update in progress: the record and where it stands. -/
structure Work where
  addr : Nat
  phase : WorkPhase
  deriving DecidableEq, Repr

/-- An update station (R228 to R241): the open step, the latched hyperparameters and loss-scale exponent, packets that have arrived,
tiles in the buffer in the order in which they completed, the records that have had their tile by step, the translation cache. -/
structure Station where
  openStep : Option (BitVec 16)
  hp : List Word
  lse : BitVec 8
  arrived : List GradPkt
  tiles : List GradTile
  seen : List (BitVec 16 × Nat)
  xlate : List (Nat × Nat × Nat)
  /-- The update in progress (R235). -/
  work : Option Work
  deriving DecidableEq, Repr

def Station.reset : Station :=
  { openStep := none, hp := [], lse := 0, arrived := [], tiles := [], seen := [], xlate := [], work := none }

/-- A memory controller: registers, the contents of its package's frames, the frames in use, the poisoned units (frame, unit), the
sub-channels that have failed and are not yet retired (R339), the frames to which retired sub-channels have moved (R195), its update station. -/
structure Mc where
  regs : Regs
  frames : Tbl Mem
  used : List Nat
  poison : List (Nat × Nat)
  failed : BitVec 16
  reloc : List Nat
  cyc : BitVec 64
  stn : Station
  deriving DecidableEq, Repr

def Mc.reset : Mc := { regs := [], frames := [], used := [], poison := [], failed := 0, reloc := [], cyc := 0, stn := Station.reset }

/-- A host-tier sector with its record, as the device wrote them (R214): partition, bus addresses of sector and record, what the
additional data binds, the key, the nonce, the contents. -/
structure HostSec where
  part : Nat
  addr : Nat
  tagAddr : Nat
  epoch : Nat
  page : Nat
  sector : Nat
  key : HKey
  ctr : BitVec 64
  load : Word
  data : Mem
  deriving DecidableEq, Repr

/-- What awaits a PCI Express completion (R301). -/
inductive ReqFor
  | roller (cl ch : Nat)
  /-- The print (0), the proof (1), the sweep of page n (2 + n) of a partition. -/
  | engine (p e : Nat)
  deriving DecidableEq, Repr

/-- A read request to the host: tag, partition, bus address, bytes, the SPACE 3 address of the first sector that it serves, whether it reads sectors
or their records, what awaits it, whether it has left (Bus Master Enable, R301). -/
structure HostReq where
  tag : Nat
  part : Nat
  addr : Nat
  len : Nat
  dev : Nat
  data : Bool
  for_ : ReqFor
  sent : Bool
  deriving DecidableEq, Repr

/-- What the root of trust derives from the identity seed at start-up (R314), which is then erased: the identity key, the HMAC key of the counters, the
firmware key and its certificate under the identity key. They stay in key registers that no other unit reads. -/
structure RotKeys where
  ik : BitVec 384
  hmac : BitVec 256
  fk : BitVec 384
  fkCert : BitVec 768
  deriving DecidableEq, Repr

/-- What waits for the root of trust (R316): a mailbox whose command was written, or a tenant's SEAL (R325). -/
inductive RotReq
  | mbx (b : Mailbox)
  | seal (p : PartIx) (policy : BitVec 8) (expect : BitVec 384)
  deriving DecidableEq, Repr

/-- The root of trust (R310 to R316, R331): the flash, with the firmware slots, whether the helper data agrees with its digest and the public key in the
certificate region with the ROM's (R311), the boot preference, the replay-protected counters 0 to 3; the image that a FW_UPDATE is
writing; the derived keys; requests of random bits since the DRBG was seeded last, and how often it was; the digest of the running image; what waits, in order
of arrival; the reason of the command at the front once it has taken effect or been refused; the repair map (R336, R354): the physical
cluster behind each logical one and, where it is not its own number, the core of that cluster behind a logical core; physical clusters that do not work
(die × 64 + number) and physical cores that do not ((die × 64 + number) × 64 + core). -/
structure Rot where
  slotA : Option Image
  slotB : Option Image
  helperOk : Bool
  keyOk : Bool
  /-- The helper-data region; the identity certificate and the firmware public key of the certificate region (R310, R311, R314). -/
  helper : List Byte
  idCert : List Byte
  fwKey : BitVec 768
  primary : Bool
  trial : Bool
  minsvn : BitVec 16
  loads : Word
  sessions : Word
  ctr3 : Word
  writing : Option Image
  keys : Option RotKeys
  drawn : Nat
  seeds : Nat
  digest : BitVec 384
  queue : List RotReq
  result : Option Nat
  phys : Tbl Nat
  bad : List Nat
  coreMap : Tbl Nat
  badCores : List Nat
  deriving DecidableEq, Repr

/-- The flash as it leaves the works: a bootable image in slot A (log 6). (log 6: DESIGN CHOICE; log 7: DESIGN CHOICE.) -/
def Rot.reset : Rot :=
  { slotA := some { header := BitVec.ofNat 2048 (0x44465756 + 4096 * 2 ^ 64), sigOk := true, digest := Config.shippedDigest },
    slotB := none, helperOk := true, keyOk := true, helper := Config.helperData, idCert := Config.idCert, fwKey := Config.fwKey, primary := false, trial := false, minsvn := 0, loads := 0, sessions := 0, ctr3 := 0, writing := none,
    keys := none, drawn := 0, seeds := 0, digest := 0, queue := [], result := none, phys := [], bad := [], coreMap := [], badCores := [] }

/-- Supply and pins (R373 to R384, R388): the input is above its threshold, the rails in regulation, POWER_GOOD, PERST_N asserted,
the thermal trip, THERM_ALERT_N asserted, the PCI Express link, samples above the cap at the longest cycle (R379), what start-up finds, given
with PERST_N's deassertion (R390). `input` says that conversion runs. -/
structure Power where
  input : Bool
  rails : Nat
  good : Bool
  perst : Bool
  trip : Bool
  alert : Bool
  link : Bool
  overs : Nat
  facts : Option BootFacts
  /-- Start-up has come through step 8, and step 9 has not yet taken place (R390). -/
  booting : Bool
  deriving DecidableEq, Repr

/-- The supply at reset (log 2: DESIGN CHOICE). -/
def Power.reset : Power :=
  { input := true, rails := 7, good := true, perst := true, trip := false, alert := false, link := false, overs := 0, facts := none, booting := false }

structure Hub where
  regs : Regs
  pf : FnState
  ind : IndState
  /-- Answers to sync operations of host-class cores: core, transaction, answer. -/
  hccRsps : List (Nat × Nat × Answer)
  /-- Stores of host-class cores that the hub cache has not yet written back: by core, oldest first (R190). -/
  hccDirty : Tbl (List HccAccess)
  /-- The bytes that the last load of a host-class core returned; none where it was refused. -/
  hccLoad : Tbl (List Byte)
  /-- The translation cache of the host-class cores (R198). -/
  xlate : List (Nat × Nat × Nat)
  /-- The sectors and records that stand in host memory; pairs that stood there before, which the host may put back (R216). -/
  host : List HostSec
  hostOld : List HostSec
  /-- Read requests that await their completion; the next tag; the next SESSION key. -/
  reqs : List HostReq
  nextTag : Nat
  nextKey : Nat
  /-- Bytes that had left through the endpoint when CTR_PCIE_TX last stood at 0 (R397). -/
  txBase : Nat
  rot : Rot
  pwr : Power
  /-- The SPDM version negotiated over the sideband, or 0 (R309). -/
  sbSpdm : Nat
  /-- The contact sheet (R368): islands that a marker has still to reach, islands whose acknowledgement is on its way; the hub's cycles. -/
  markers : List Island
  acks : List Island
  cyc : BitVec 64
  /-- Molts that wait for their boundary (R344); spare rows and spare columns in use or unusable, by physical array (R334); partitions to which a
  loss report is on its way (R341). -/
  molts : List FaultUnit
  rowSp : Tbl Nat
  colSp : Tbl Nat
  lossDue : BitVec 8
  deriving DecidableEq, Repr

def Hub.reset : Hub :=
  { regs := [], pf := FnState.reset, ind := IndState.reset, hccRsps := [], hccDirty := [], hccLoad := [], xlate := [], host := [], hostOld := [], reqs := [],
    nextTag := 0, nextKey := 0, txBase := 0, rot := Rot.reset, pwr := Power.reset, sbSpdm := 0, markers := [], acks := [], cyc := 0, molts := [], rowSp := [],
    colSp := [], lossDue := 0 }

/-- The device, and the commands that wait. -/
structure State where
  cores : Tbl Core
  clusters : Tbl Cluster
  mcs : Tbl Mc
  lnks : Tbl Lnk
  parts : Tbl Part
  hub : Hub
  mesh : List Packet
  outbox : List Msg
  free : Nat
  pending : List Instr
  deriving DecidableEq, Repr

/-- Why a run of the block stops. No command's meaning ends in a fault: every access that the spec speaks of has an effect there
(a trap, a refusal, an error, a dropped access). -/
inductive Fault
  /-- Raised by nothing: kept so that the type is not empty; safe. -/
  | none_
  deriving DecidableEq, Repr

/-- Why a command is refused. -/
inductive Refusal
  /-- Answered by an arm of `exec` whose command has no meaning yet; safe. -/
  | notModelled (mnemonic : String)
  /-- Answered by a meaning whose operands no such command can carry (Sys2Proof/WellFormed.lean); safe. -/
  | illFormed (mnemonic : String)
  deriving DecidableEq, Repr

/-- The device as it leaves reset: rails up, POWER_GOOD asserted, PERST_N asserted (log 2). -/
def State.reset : State :=
  { cores := [], clusters := [], mcs := [], lnks := [], parts := [], hub := Hub.reset, mesh := [], outbox := [], free := 0,
    pending := [] }

end Sys2Proof.Machine
end

