-- ==== Sys2Proof/Machine/Mem.lean ====
section
/-! DEFINITION. Memories: reading and writing runs of bytes in the canonical form (no byte equal to 0 is listed; log 3). -/
namespace Sys2Proof.Machine

/-- What an unlisted address reads as (log 3). (log 3: DESIGN CHOICE.) -/
def Mem.blank : Byte := 0#8

/-- The canonical form: addresses strictly rising, no entry equal to what an unlisted address reads as. -/
abbrev Mem.wf (m : Mem) : Prop := m.Pairwise (fun a b => a.1 < b.1) ∧ m.all (fun c => c.2 != Mem.blank) = true

/-- The byte at an address. -/
def mread : Mem → Nat → Byte
  | [], _ => Mem.blank
  | c :: r, a => if c.1 = a then c.2 else mread r a

/-- The cells of a byte list laid at an address, blank bytes left out. -/
def cellsAt : List Byte → Nat → Mem
  | [], _ => []
  | b :: bs, a => if b = Mem.blank then cellsAt bs (a + 1) else (a, b) :: cellsAt bs (a + 1)

/-- The memory with bytes stored from an address on. -/
def mwrites (m : Mem) (a : Nat) (bs : List Byte) : Mem :=
  m.filter (fun c => c.1 < a) ++ cellsAt bs a ++ m.filter (fun c => a + bs.length ≤ c.1)

/-- The memory with one byte stored. -/
def mwrite (m : Mem) (a : Nat) (b : Byte) : Mem := mwrites m a [b]

/-- `n` bytes from an address on. -/
def mreads (m : Mem) (a : Nat) : Nat → List Byte
  | 0 => []
  | n + 1 => mread m a :: mreads m (a + 1) n

/-- The listed cells of a range, for long reads. -/
def mslice (m : Mem) (a n : Nat) : Mem := m.filter (fun c => a ≤ c.1 && c.1 < a + n)

/-- `n` bytes of a range, through its listed cells. -/
def mblock (m : Mem) (a n : Nat) : List Byte := mreads (mslice m a n) a n

/-- The little-endian number of `n` bytes (R2). -/
def mreadNat (m : Mem) (a n : Nat) : Nat := leNat (mreads m a n)

/-- A range set to blank bytes. -/
def mzero (m : Mem) (a n : Nat) : Mem := m.filter (fun c => c.1 < a || a + n ≤ c.1)

/-- Two lists of byte ranges (start, length) overlap (R95). -/
def rangesMeet (a b : List (Nat × Nat)) : Bool :=
  a.any (fun x => b.any (fun y => x.1 < y.1 + y.2 && y.1 < x.1 + x.2))

end Sys2Proof.Machine
end

