-- ==== Sys2Proof/Machine/Ops.lean ====
section
/-! DEFINITION. The named operations over the state: reading and replacing units, free values, interrupts, trace records, traps. -/
namespace Sys2Proof.Machine

abbrev Out := Host.Outcome State Fault Refusal

/-! ### Units by number -/
def getCore (s : State) (c : Nat) : Core := tget s.cores c Core.reset
def setCore (s : State) (c : Nat) (k : Core) : State := { s with cores := tset s.cores c k }
def getCl (s : State) (c : Nat) : Cluster := tget s.clusters c Cluster.reset
def setCl (s : State) (c : Nat) (k : Cluster) : State := { s with clusters := tset s.clusters c k }
def getMc (s : State) (m : Nat) : Mc := tget s.mcs m Mc.reset
def setMc (s : State) (m : Nat) (k : Mc) : State := { s with mcs := tset s.mcs m k }
def getLnk (s : State) (l : Nat) : Lnk := tget s.lnks l Lnk.reset
def setLnk (s : State) (l : Nat) (k : Lnk) : State := { s with lnks := tset s.lnks l k }
def getPart (s : State) (p : Nat) : Part := tget s.parts p Part.reset
def setPart (s : State) (p : Nat) (k : Part) : State := { s with parts := tset s.parts p k }

/-! ### Reset values of registers: an unlisted register holds its reset value -/
/-- Cluster page (R136, R142, R212, R266): RL_RSTATn resets to 0x1000. -/
def clReset (off : Nat) : Word := if off = 0x182C ∨ off = 0x183C ∨ off = 0x184C ∨ off = 0x185C then 0x1000#32 else 0
/-- Partition block (R371, R404). -/
def partReset (off : Nat) : Word :=
  if off = 0x24 then 1 else if off = 0x1E4 then 1 else if off = 0x2008 then 0x10000#32 else 0
/-- Link port (R294). -/
def lnkReset (off : Nat) : Word := if off = 0x4 then 0xFFFF#32 else if off = 0x8 then 0x70#32 else 0
/-- Hub, by BAR0 offset (R368, R369, R393). -/
def hubReset (off : Nat) : Word :=
  if off = 0x0 then 0x00014E01#32 else if off = 0x8 then 0xFFFF#32 else if off = 0x1008 then 0xA28#32
  else if off = 0x1020 then 0x64#32 else if off = 0x1028 then 0x3B6#32 else if off = 0x300004 then 0x10000#32 else 0

def coreReg (k : Core) (off : Nat) : Word := tget k.regs off 0
def Core.setReg (k : Core) (off : Nat) (v : Word) : Core := { k with regs := tset k.regs off v }
def clReg (k : Cluster) (off : Nat) : Word := tget k.regs off (clReset off)
def Cluster.setReg (k : Cluster) (off : Nat) (v : Word) : Cluster := { k with regs := tset k.regs off v }
def mcReg (k : Mc) (off : Nat) : Word := tget k.regs off 0
def Mc.setReg (k : Mc) (off : Nat) (v : Word) : Mc := { k with regs := tset k.regs off v }
def lnkReg (k : Lnk) (off : Nat) : Word := tget k.regs off (lnkReset off)
def Lnk.setReg (k : Lnk) (off : Nat) (v : Word) : Lnk := { k with regs := tset k.regs off v }
def partReg (k : Part) (off : Nat) : Word := tget k.regs off (partReset off)
def Part.setReg (k : Part) (off : Nat) (v : Word) : Part := { k with regs := tset k.regs off v }
def hubReg (k : Hub) (off : Nat) : Word := tget k.regs off (hubReset off)
def Hub.setReg (k : Hub) (off : Nat) (v : Word) : Hub := { k with regs := tset k.regs off v }

/-! ### A unit changed in its place -/
def modHub (s : State) (f : Hub → Hub) : State := { s with hub := f s.hub }
def modRot (s : State) (f : Rot → Rot) : State := modHub s (fun h => { h with rot := f h.rot })
def modPart (s : State) (p : Nat) (f : Part → Part) : State := setPart s p (f (getPart s p))
def Part.stat (k : Part) (hi lo v : Nat) : Part := k.setReg 0x10 (setFld (partReg k 0x10) hi lo v)

/-- A counter of a core's page, plus n, modulo 2^32 (R126, R394). -/
def Core.count (k : Core) (off n : Nat) : Core := k.setReg off (coreReg k off + w32 n)
def Cluster.count (k : Cluster) (off n : Nat) : Cluster := k.setReg off (clReg k off + w32 n)

/-! ### Free values (log 1) -/
/-- The next free value of `w` bits, and the state that has used it. (log 1: DESIGN CHOICE.) -/
def takeFree (w : Nat) (s : State) : BitVec w × State := ((Config.freeWord s.free).setWidth w, { s with free := s.free + 1 })

/-- One request of random bits to the root of trust's DRBG, which is reseeded after 2^20 of them (R310). -/
def Rot.draw (r : Rot) : Rot := if r.drawn + 1 = 2 ^ 20 then { r with drawn := 0, seeds := r.seeds + 1 } else { r with drawn := r.drawn + 1 }
/-- Random bits. -/
def random (s : State) : BitVec 256 × State := (Config.drbg s.free, { modRot s Rot.draw with free := s.free + 1 })

/-- R396: the cycle count of a cluster's island as it stands now: what was last seen plus the cycles that have passed since, which
the spec leaves open (log 5). (log 5: DESIGN CHOICE.) -/
def clCycles (s : State) (cl : Nat) : BitVec 64 × State :=
  let k := getCl s cl
  let v := k.cyc + Config.elapsed s.free
  (v, { setCl s cl { k with cyc := v } with free := s.free + 1 })

/-! ### Coordinates (R13, R14, R20) -/
/-- The place code of a cluster. -/
def placeCl (cl : Nat) : Nat := cl / 40 * 2 ^ 14 + cl % 40 % 8 * 2 ^ 11 + cl % 40 / 8 * 2 ^ 8
/-- The place code of a core. -/
def placeCore (c : Nat) : Nat := placeCl (c / 32) + c % 32 * 8
/-- The cluster at which unit k (0 to 15) of the memory controllers attaches. -/
def mcCluster (m : Nat) : Nat := m / 4 * 40 + (if m % 4 % 2 = 0 then 1 else 3) * 8 + (if m % 4 < 2 then 0 else 7)
/-- The cluster at which a link port attaches. -/
def lpCluster (l : Nat) : Nat := l / 4 * 40 + (if l % 4 < 2 then 0 else 4) * 8 + (if l % 4 % 2 = 0 then 2 else 5)

/-! ### Interrupts (R305, R370) -/
/-- Configuration words that the endpoint itself reads; their offsets are PRESUMED (log 8): Command at 0x04 (bit 2: Bus Master
Enable), power state at 0x44 (bits [1:0], 3: D3hot), MSI-X control at 0xB0 (bit 31: enable; bit 30: function mask). -/
def fnBusMaster (f : FnState) : Bool := bit (tget f.cfg 0x04 0) 2
def fnD3 (f : FnState) : Bool := fld (tget f.cfg 0x44 0) 1 0 == 3
def fnMsixOn (f : FnState) : Bool := bit (tget f.cfg 0xB0 0) 31 && !(bit (tget f.cfg 0xB0 0) 30)

/-- A word of the MSI-X table; a vector is masked after reset. -/
def msixWord (f : FnState) (off : Nat) : Word := tget f.msix off (if off % 16 = 12 then 1 else 0)

/-- A message of vector v can leave. -/
def msixClear (f : FnState) (v : Nat) : Bool := fnMsixOn f && fnBusMaster f && !(fnD3 f) && !(bit (msixWord f (16 * v + 12)) 0)

def msixMsg (fn : Fn) (f : FnState) (v : Nat) : Msg :=
  .msix fn v (BitVec.ofNat 64 ((msixWord f (16 * v + 4)).toNat * 2 ^ 32 + (msixWord f (16 * v)).toNat)) (msixWord f (16 * v + 8))

/-- The function, with vector v pending once. -/
def fnPend (f : FnState) (v : Nat) : FnState := if f.pend.contains v then f else { f with pend := f.pend ++ [v] }

/-- R305, R326, R333: no message of partition p leaves while REQUIRE_IDE holds it or the fixer pass runs. -/
def partMute (k : Part) : Bool :=
  let st := partReg k 0x10
  fld st 1 0 == 3 || (bit st 4 && !(bit st 5))

/-- R305: partition p sends a message to vector v, or holds it pending. -/
def partMsg (s : State) (p v : Nat) : State :=
  if v ≥ 248 then s
  else
    let k := getPart s p
    if msixClear k.fn v && !(partMute k) then { s with outbox := s.outbox ++ [msixMsg (.vf ⟨p % 8, Nat.mod_lt _ (by decide)⟩) k.fn v] }
    else setPart s p { k with fn := fnPend k.fn v }

/-- R370: the physical function's messages. -/
def pfMsg (s : State) (v : Nat) : State :=
  if v ≥ 64 then s
  else if msixClear s.hub.pf v then { s with outbox := s.outbox ++ [msixMsg .pf s.hub.pf v] }
  else { s with hub := { s.hub with pf := fnPend s.hub.pf v } }

/-- Payload bytes of a message that leaves through the PCI Express endpoint (R397). -/
def Msg.payload : Msg → Nat
  | .msix .. => 4
  | .readData (.hcc _) _ => 0
  | .readData .. => 4
  | .hostSector _ _ _ c r => c.length + r.length
  | .hostWrite _ _ b => b.length
  | .cfg _ w => if w.isSome then 4 else 0
  | _ => 0
def payloadOut (l : List Msg) : Nat := (l.map Msg.payload).sum

/-- The vector of cause b in the VEC registers from `off` on. -/
def irqVec (r : Nat → Word) (off b : Nat) : Nat := fld (r (off + b / 4 * 4)) (8 * (b % 4) + 7) (8 * (b % 4))

/-- R305: cause b of a partition: its STAT bit goes to 1, and a message is sent if it was 0 and is enabled. -/
def raisePart (s : State) (p b : Nat) : State :=
  let k := getPart s p
  let st := partReg k 0x40
  if bit st b then s
  else
    let s1 := setPart s p (k.setReg 0x40 (setBit st b true))
    if bit (partReg k 0x44) b then partMsg s1 p (irqVec (partReg k) 0x48 b) else s1

/-- R370: cause b of the physical function. -/
def raisePf (s : State) (b : Nat) : State :=
  let st := hubReg s.hub 0x10
  if bit st b then s
  else
    let s1 := { s with hub := s.hub.setReg 0x10 (setBit st b true) }
    if bit (hubReg s.hub 0x14) b then pfMsg s1 (irqVec (hubReg s.hub) 0x18 b) else s1

/-! ### Trace records (R401 to R403) -/
/-- R401: the cluster is a source of partition p (selected, and it holds cores of p) and the event is enabled. -/
def traceOn (s : State) (p cl evt : Nat) : Bool :=
  let k := getPart s p
  bit (partReg k 0x2004) 0 && bit (partReg k (0x2020 + cl / 32 * 4)) (cl % 32) && tget k.grants.cores cl (0 : BitVec 32) != 0 &&
    (evt == 6 || evt == 9 || bit (partReg k 0x2000) (evt + 1))

/-- A record with no fields. -/
def TraceRec.blank : TraceRec :=
  { part := 0, evt := 0, ctx := 0, slot := 0, place := 0, cyc := 0, seq := 0, tag := 0, pc := 0, info := 0, args := [] }

/-- One record dropped at a source: counted for the next LOST record and in TRC_LOST. -/
def dropTrace (s : State) (p cl : Nat) : State :=
  let k := getCl s cl
  let q := getPart s p
  setPart (setCl s cl { k with dropped := k.dropped + 1 }) p (q.setReg 0x2040 (w32 (satAdd 0xFFFFFFFF (partReg q 0x2040).toNat 1)))

/-- A record waits in the source's buffer of 16; a full buffer drops it, and the next that fits is preceded by LOST. -/
def pushTrace (s : State) (p cl : Nat) (t : TraceRec) : State :=
  let k := getCl s cl
  let lost := { TraceRec.blank with part := p, evt := 9, place := placeCl cl, cyc := t.cyc, seq := t.seq, args := [w32 k.dropped] }
  let room := 16 - k.trace.length
  if room = 0 then dropTrace s p cl
  else if k.dropped = 0 then setCl s cl { k with trace := k.trace ++ [t] }
  else if room = 1 then dropTrace (setCl s cl { k with trace := k.trace ++ [lost], dropped := 0 }) p cl
  else setCl s cl { k with trace := k.trace ++ [lost, t], dropped := 0 }

/-- A record of partition p, with the cycle and the sheet number of the cluster. -/
def emitTrace (s : State) (p cl : Nat) (t : TraceRec) : State :=
  if traceOn s p cl t.evt then
    let cy := clCycles s cl
    pushTrace cy.2 p cl { t with part := p, cyc := cy.1.setWidth 32, seq := fld (clReg (getCl s cl) 0xF00) 15 0 }
  else s

/-! ### Runs, stations, registers of a core -/
def ctxOf (k : Core) (x : Nat) : CtxState := tget k.ctxs x CtxState.reset
def Core.setCtx (k : Core) (x : Nat) (t : CtxState) : Core := { k with ctxs := tset k.ctxs x t }

/-- The partition of the station that a context serves. -/
def ctxPart (t : CtxState) : Nat := match t.stn with | some r => r.part | none => 0

/-- A word of the station entry that a context serves (R372). -/
def stnWord (s : State) (t : CtxState) (off : Nat) : Word :=
  match t.stn with
  | some r => partReg (getPart s r.part) (0x8000 + r.entry * 0x100 + off)
  | none => 0

def RunId.num : RunId → Nat | .setup => 0 | .slot k => k.val
def RunId.isSetup : RunId → Bool | .setup => true | .slot _ => false

/-- The run by name, of the active context. -/
def runOf (k : Core) (id : RunId) : Option Run :=
  match id with
  | .setup => (ctxOf k k.active).setup
  | .slot n => tfind k.firings n.val

/-- The core with a run replaced. -/
def Core.setRun (k : Core) (id : RunId) (r : Run) : Core :=
  match id with
  | .setup => k.setCtx k.active { ctxOf k k.active with setup := some r }
  | .slot n => { k with firings := tset k.firings n.val r }

/-- The core without a run. -/
def Core.dropRun (k : Core) (id : RunId) : Core :=
  match id with
  | .setup => k.setCtx k.active { ctxOf k k.active with setup := none }
  | .slot n => { k with firings := tdel k.firings n.val }

/-! ### Roller channels -/
def getChan (k : Cluster) (ch : Nat) : Chan := tget k.chans ch Chan.reset
def setChan (k : Cluster) (ch : Nat) (h : Chan) : Cluster := { k with chans := tset k.chans ch h }

/-! ### Traps (R89) -/
/-- R89: the record, LOST, the hold on the context, the interrupt. -/
def takeTrap (s : State) (c : Nat) (id : RunId) (r : Run) (cause info : Nat) : State :=
  let k := getCore s c
  let st := coreReg k 0x004
  let k1 :=
    if bit st 0 then k.setReg 0x004 (setFld st 23 16 (satAdd 255 (fld st 23 16) 1))
    else
      ((k.setReg 0x008 (w32 (cause + r.ctx % 4 * 2 ^ 8 + RunId.num id * 2 ^ 10 + (b2n (RunId.isSetup id)) * 2 ^ 13 + r.pc.toNat * 2 ^ 16))).setReg
        0x00C (w32 (r.tg.toNat + info % 65536 * 2 ^ 16))).setReg 0x004 (setBit st 0 true)
  let k2 := if (tfind k1.traps r.ctx).isSome then k1 else { k1 with traps := tset k1.traps r.ctx { run := id, cause := cause } }
  let p := ctxPart (ctxOf k r.ctx)
  let s1 := raisePart (setCore s c k2) p 0
  emitTrace s1 p (c / 32) { TraceRec.blank with evt := 5, ctx := r.ctx, slot := RunId.num id, place := placeCore c, tag := r.tg, pc := r.pc.toNat, args := [coreReg k2 0x008, coreReg k2 0x00C] }

end Sys2Proof.Machine
end

