-- ==== Sys2Proof/Machine/Path.lean ====
section
/-! DEFINITION. The paths of the packet mesh (R13, R111, R139) and the die-to-die interfaces that they cross (R10, R398). -/
namespace Sys2Proof.Machine

/-! ### The grid -/
/-- R13, R139: the place of a cluster on the grid of 16 columns by 10 rows that the four dies make, and the cluster at a place. -/
def gridX (cl : Nat) : Nat := cl / 40 % 2 * 8 + cl % 8
def gridY (cl : Nat) : Nat := cl / 80 * 5 + cl % 40 / 8
def gridAt (x y : Nat) : Nat := (y / 5 * 2 + x / 8) * 40 + y % 5 * 8 + x % 8

/-! ### The fixed path (R111, R139) -/
/-- The cluster whose router a unit of a compute die sits at. -/
def nodeCluster : Node → Option Nat
  | .core c => some (c / 32)
  | .cluster cl => some cl
  | .mc m => some (mcCluster m)
  | .lp l => some (lpCluster l)
  | .hub _ => none
/-- The corner cluster of a die whose router carries DHd. -/
def hubCorner (d : Nat) : Nat := d * 40 + (if d < 2 then 4 * 8 else 0) + (if d % 2 = 0 then 7 else 0)
/-- The places after `a`, up to `b`. -/
def upTo (a b : Nat) : List Nat :=
  if a ≤ b then (List.range (b - a)).map (fun i => a + 1 + i) else (List.range (a - b)).map (fun i => a - 1 - i)
/-- The routers from one cluster to another: along the column axis, then along the row axis. -/
def meshWalk (a b : Nat) : List Nat :=
  a :: ((upTo (gridX a) (gridX b)).map (fun x => gridAt x (gridY a)) ++ (upTo (gridY a) (gridY b)).map (fun y => gridAt (gridX b) y))
/-- The routers on the path of a packet, from source to destination. -/
def meshPath (src dst : Node) : List Nat :=
  match nodeCluster src, nodeCluster dst with
  | some a, some b => meshWalk a b
  | some a, none => meshWalk a (hubCorner (a / 40))
  | none, some b => meshWalk (hubCorner (b / 40)) b
  | none, none => []

/-! ### Die-to-die interfaces (R10, R398) -/
/-- BAR0 offset of a die-to-die counter slot (R398): 1 along the die row, 2 along the die column. -/
def ddOff (die slot : Nat) : Nat := 0x1300000 + die * 0x400000 + slot * 0x100

/-- The slot of the interface between two dies. -/
def ddSlot (x y : Nat) : Nat := if x / 2 = y / 2 then 1 else 2

/-- The steps of a path from one die to another. -/
def dieSteps : List Nat → List (Nat × Nat)
  | a :: b :: r => if a / 40 = b / 40 then dieSteps (b :: r) else (a / 40, b / 40) :: dieSteps (b :: r)
  | _ => []
/-- R398: n flits over the interface of slot i, counted at both ends' dies; in slot 0 at the compute die alone. -/
def ddMesh (s : State) (src dst : Node) (n : Nat) : State :=
  let up := fun (t : State) (o : Nat) => { t with hub := t.hub.setReg o (hubReg t.hub o + w32 n) }
  let path := meshPath src dst
  let s1 := (dieSteps path).foldl (fun t e => up (up t (ddOff e.1 (ddSlot e.1 e.2))) (ddOff e.2 (ddSlot e.1 e.2) + 4)) s
  match nodeCluster src, nodeCluster dst with
  | some a, none => up s1 (ddOff (a / 40) 0)
  | none, some b => up s1 (ddOff (b / 40) 0 + 4)
  | _, _ => s1
/-- A request of `req` flits from a unit to another, and an answer of `rsp` flits, that the model moves in one step. (log 113: DESIGN CHOICE.) -/
def ddTrip (s : State) (src dst : Node) (req rsp : Nat) : State := ddMesh (ddMesh s src dst req) dst src rsp
/-- The flits that carry n bytes in packets of eight payload flits (R137, R410). -/
def bulkFlits (n : Nat) : Nat := (n + 31) / 32 + (n + 255) / 256

end Sys2Proof.Machine
end

