-- ==== Sys2Proof/Machine/Own.lean ====
section
/-! DEFINITION. Who owns what, what PID an access carries, and the mesh firewall's refusals (R138 to R142, R298, R318). -/
namespace Sys2Proof.Machine

/-! ### Partitions (R317, R322) -/
def ABSENT : Nat := 0
def OPEN : Nat := 1
def SEALED : Nat := 2
def SCRUB : Nat := 3
/-- PART_STATUS.STATE. -/
def partState (s : State) (p : Nat) : Nat := fld (partReg (getPart s p) 0x10) 1 0
/-- The partition is in the fixer pass. -/
def inPass (s : State) (p : Nat) : Bool := decide (p < 8) && partState s p == SCRUB
/-- R140: packets of a partition in the pass or torn down do not pass. -/
def pidDown (s : State) (pid : Nat) : Bool := decide (pid < 8) && (partState s pid == SCRUB || partState s pid == ABSENT)

/-! ### Grants -/
def findPart (f : Nat → Bool) : Option Nat := (List.range 8).find? f
def coreOwner (s : State) (c : Nat) : Option Nat :=
  findPart (fun p => bit (tget (getPart s p).grants.cores (c / 32) (0 : BitVec 32)) (c % 32))
def stagingOwner (s : State) (cl r : Nat) : Option Nat :=
  findPart (fun p => bit (tget (getPart s p).grants.staging cl (0 : BitVec 128)) r)
def portOwner (s : State) (l : Nat) : Option Nat := findPart (fun p => bit (getPart s p).grants.ports l)
def stationOwner (s : State) (m : Nat) : Option Nat := findPart (fun p => bit (getPart s p).grants.stations m)
def hccOwner (s : State) (h : Nat) : Option Nat := findPart (fun p => bit (getPart s p).grants.hccs h)

/-- R138: the PID that a function's packets carry; none for a host-class core assigned to no partition (R22). -/
def fnPid (s : State) : Fn → Option Nat
  | .pf => some 0xF
  | .vf p => some p.val
  | .hcc h => hccOwner s h.val

/-! ### Refusals -/
def OWNER_MISMATCH : Nat := 1
def PARTITION_UNAVAILABLE : Nat := 2
def NOT_MAPPED : Nat := 3
def TYPE_NOT_PERMITTED : Nat := 4

/-- SRC or DST of a packet (R137). (log 19: DESIGN CHOICE.) -/
def nodeCode : Node → Nat
  | .core c => placeCore c
  | .cluster cl => placeCl cl
  | .mc m => m
  | .lp l => l
  | .hub b => (Config.hubUnit b).toNat

/-- Saturating addition to a register field that fills the low bits. -/
def bump (max : Nat) (w : Word) (n : Nat) : Word := w32 (satAdd max w.toNat n)

/-- COUNT plus one, VALID set (R142). -/
def fwStat (w : Word) : Word := setBit (setFld w 15 0 (satAdd 0xFFFF (fld w 15 0) 1)) 16 true
def fwLog0 (pid typ code src : Nat) : Word := w32 (pid % 16 + typ % 16 * 2 ^ 4 + code % 256 * 2 ^ 8 + src % 65536 * 2 ^ 16)
def fwLog1 (dst addr : Nat) : Word := w32 (dst % 65536 + addr % 65536 * 2 ^ 16)

/-- R142: the router in front of a destination counts a refusal, and logs the first. Blocks of the hub die keep no such registers. -/
def fwRefuse (s : State) (dst : Node) (pid typ code src addr : Nat) : State :=
  let d := nodeCode dst
  match dst with
  | .core c => atCl s (c / 32) d
  | .cluster cl => atCl s cl d
  | .mc m =>
    let k := getMc s m
    let w := mcReg k 0x210
    let k1 := k.setReg 0x210 (fwStat w)
    setMc s m (if bit w 16 then k1 else (k1.setReg 0x214 (fwLog0 pid typ code src)).setReg 0x218 (fwLog1 d addr))
  | .lp l =>
    let k := getLnk s l
    let w := lnkReg k 0x200
    let k1 := k.setReg 0x200 (fwStat w)
    setLnk s l (if bit w 16 then k1 else (k1.setReg 0x204 (fwLog0 pid typ code src)).setReg 0x208 (fwLog1 d addr))
  | .hub _ => s
where
  atCl (s : State) (cl d : Nat) : State :=
    let k := getCl s cl
    let w := clReg k 0x120
    let k1 := k.setReg 0x120 (fwStat w)
    setCl s cl (if bit w 16 then k1 else (k1.setReg 0x124 (fwLog0 pid typ code src)).setReg 0x128 (fwLog1 d addr))

/-- R298: a refused access of a virtual function counts in PART_HOST_REF. -/
def hostRef (s : State) : Fn → State
  | .vf p => let k := getPart s p.val; setPart s p.val (k.setReg 0x28 (bump 0xFFFFFFFF (partReg k 0x28) 1))
  | _ => s

/-- The hub block that a function's packets come from. -/
def fnNode : Fn → Node
  | .hcc h => .hub (16 + h.val)
  | _ => .hub 0

/-- R140: the first code in its order, of those that apply. -/
def firstCode (unavail unmapped mismatch typ : Bool) : Option Nat :=
  if unavail then some PARTITION_UNAVAILABLE else if unmapped then some NOT_MAPPED else if mismatch then some OWNER_MISMATCH
  else if typ then some TYPE_NOT_PERMITTED else none

/-- The owner or last owner that a register names; 8 where the register has never been written, so that no partition has owned the
resource. (log 59: DEDUCED.) -/
def lastOwner (t : Regs) (off p : Nat) : Nat := if (tfind t off).isSome then p else 8

/-- R140: the check of a resource that keeps its owner, or its last owner, in a field: `live` says that it is owned now. PID 0xF passes
ownership; no one passes the fixer pass (R333). (log 92: DEDUCED.) -/
def ownCheck (s : State) (pid last : Nat) (live typ : Bool) : Option Nat :=
  firstCode (pidDown s pid || inPass s last) false (live && pid != 0xF && pid != last) typ

/-! ### Functions that exist (R296, R302, R326) -/
/-- `HUB_STATUS.READY`. -/
def ready (s : State) : Bool := bit (hubReg s.hub 0x4) 0
/-- VF Enable and NumVFs; the offsets are PRESUMED (log 8). -/
def vfLive (s : State) (p : Nat) : Bool := bit (tget s.hub.pf.cfg 0x148 0) 0 && decide (p < fld (tget s.hub.pf.cfg 0x150 0) 15 0)
/-- A function's memory accesses are served: start-up is complete, and a virtual function exists. -/
def fnLive (s : State) : Fn → Bool
  | .vf p => ready s && vfLive s p.val
  | _ => ready s
/-- R326: REQUIRE_IDE with a stream that is not Secure holds the partition's host traffic. -/
def ideHeld (k : Part) : Bool := let st := partReg k 0x10; bit st 4 && !(bit st 5)
/-- R326: an access of the function acts as refused. -/
def fnHeld (s : State) : Fn → Bool
  | .vf p => ideHeld (getPart s p.val)
  | _ => false

/-- R378: while the power state is not ACTIVE, the islands of clusters, memory controllers and link ports are stopped. -/
def pmActive (s : State) : Bool := fld (hubReg s.hub 0x1004) 1 0 == 0
/-- The block stands in a stopped island (log 68: DEDUCED). -/
def stopped (s : State) : Node → Bool
  | .hub _ => false
  | _ => !(pmActive s)
/-- An event of a cluster's, a memory controller's or a link port's island: in a stopped island nothing happens (R376). -/
def running (s : State) (o : Out) : Out := if pmActive s then o else .next s
/-- R382: the oscillator of a block's island is locked; PM_CLK shows those of link ports and memory controllers. -/
def locked (s : State) : Node → Bool
  | .lp l => bit (hubReg s.hub 0x1024) l
  | .mc m => bit (hubReg s.hub 0x1024) (16 + m)
  | _ => true
/-- HUB_HOSTERR (R355, R378). -/
def hostErr (s : State) : State := { s with hub := s.hub.setReg 0x34 (bump 0xFFFF (hubReg s.hub 0x34) 1) }
def stopCount (s : State) : Fn → State
  | .pf => hostErr s
  | fn => hostRef s fn

/-- A register write that a function makes at a unit: refused, it is logged there and counted (R142, R298); else it takes effect. Its flits count
where they cross a die-to-die interface (R398; log 113). -/
def guarded (s : State) (fn : Fn) (dst : Node) (addr : Nat) (check : Nat → Option Nat) (eff : Nat → State) : State :=
  if fnLive s fn = false then s
  else if fnHeld s fn then hostRef s fn
  else if stopped s dst then stopCount s fn
  else match fnPid s fn with
  | none => s
  | some pid =>
    match check pid with
    | some code => ddTrip (hostRef (fwRefuse s dst pid 7 code (nodeCode (fnNode fn)) addr) fn) (fnNode fn) dst 2 1
    | none => ddTrip (eff pid) (fnNode fn) dst 2 1

/-- R326: a write of the physical function that sealing drops, counted in the partition. -/
def sealDrop (s : State) (p pid : Nat) (eff : State) : State :=
  if pid = 0xF ∧ partState s p = SEALED then
    let k := getPart s p
    setPart s p (k.setReg 0x28 (bump 0xFFFFFFFF (partReg k 0x28) 1))
  else eff

/-- The same where the location may have no owner. -/
def sealDropOf (s : State) (o : Option Nat) (pid : Nat) (eff : State) : State :=
  match o with
  | some p => sealDrop s p pid eff
  | none => eff

/-- A write to a register of partition p's block (R297, R371). -/
def partGuard (s : State) (fn : Fn) (p off : Nat) (eff : State) : State :=
  guarded s fn (.hub 2) (0x210000 + p * 0x10000 + off) (fun pid => ownCheck s pid p true false) (fun _ => eff)

/-- R4: the MW rule on a mask of writable bits. -/
def mwApply (mask : Nat) (old v : Word) : Word :=
  let m := (v >>> 16) &&& w32 (mask % 65536)
  (old &&& ~~~m) ||| (v &&& m)

/-- MW with R141: the written word leaves bit 0 (ENABLE) at 1. -/
def mwStaysOn (old v : Word) : Bool := bit (mwApply 1 old v) 0

/-! ### Requests to the host, and stalls behind the roller (R301, R210) -/
/-- A partition's function may send requests now. -/
def hostOpen (s : State) (p : Nat) : Bool :=
  let k := getPart s p
  fnBusMaster k.fn && !(fnD3 k.fn) && !(ideHeld k) && !(inPass s p)

/-- The causes of R210's table that a job may meet at a tier while it waits for nothing that State shows. -/
def stallCauses (tier : Nat) (j : Job) : List Nat :=
  (if tier > 1 && j.miss then [1] else []) ++ (if tier > 1 then [2] else []) ++ (if tier < 3 then [3] else []) ++
    (if bit j.a.d 67 || bit j.b.d 67 then [4] else []) ++ (if tier = 3 then [5] else [])

/-- The cause that holds the roller request of access number `seq`: QUEUE in its queue, LINK while a host completion is awaited or the function
may send nothing, ERROR once it has failed (it is in no queue and no channel); otherwise one of the causes that its tier, its translation and
its compression admit, which the spec leaves to timing (a free value, log 5). -/
def stallCause (s : State) (c tier ch seq : Nat) : Nat × State :=
  if (tget (getCore s c).rq ch []).any (fun q => q.o.seq == seq) then (0, s)
  else
    match (getChan (getCl s (c / 32)) ch).job with
    | some j =>
      if j.core == some c && j.o.seq == seq then
        if j.tags.length > 0 || (tier == 3 && !(hostOpen s j.pid)) then (6, s)
        else
          let f := takeFree 8 s
          let l := stallCauses tier j
          (l.getD (f.1.toNat % l.length) 0, f.2)
      else (7, s)
    | none => (7, s)

/-- One waiting cycle charged to a tier (R210, R212). -/
def chargeTier (s : State) (c tier ch seq : Nat) : State :=
  let z := stallCause s c tier ch seq
  setCl z.2 (c / 32) ((getCl z.2 (c / 32)).count (0x1900 + (tier - 1) * 0x20 + z.1 * 4) 1)

/-- A wait behind accesses to data SRAM, in issue order (R95, R126): it counts as an SRAM-order stall, and at each tier for the oldest of them that
loads from it (R210; log 74). -/
def chargeWait (s : State) (c : Nat) (as : List Access) : State :=
  [1, 2, 3].foldl (fun s t => match as.find? (fun a => a.tier == t) with | some a => chargeTier s c t a.ch a.seq | none => s)
    (setCore s c ((getCore s c).count 0x03C 1))

end Sys2Proof.Machine
end

