-- ==== Sys2Proof/Machine/Cfg.lean ====
section
/-! DEFINITION. The words of a function's configuration space (R295 to R297, R302, R307): what they hold at reset and which of their bits a write
reaches. The places and codes are those of PCI Express (log 8, log 50: PRESUMED); a word that is not listed reads 0 and takes no write. -/
namespace Sys2Proof.Machine

/-- The uncorrectable error status of AER, write one to clear; bit 12 a poisoned TLP. -/
def AER : Nat := 0x104
/-- Where the registers of IDE stream i begin; stream i serves function i (log 125: DESIGN CHOICE). -/
def ideBlock (i : Nat) : Nat := 0x1CC + 0x2C * i

/-- A time in Readiness Time Reporting: as few units as the least scale of 32^k ns has for it, at most 511, rounded up. -/
def rtrTime (ns : Nat) : Nat :=
  let units := fun (k : Nat) => (ns + 32 ^ k - 1) / 32 ^ k
  let k := ((List.range 6).find? (fun k => decide (units k ≤ 511))).getD 5
  units k + 512 * k
/-- R302: Reset Time 3.5 s and DL_Up Time 100 ms, then the FLR Time. -/
def rtrWords (flrMs : Nat) : Tbl Word :=
  [(0x1A4, w32 (rtrTime 3500000000 + rtrTime 100000000 * 2 ^ 12 + 2 ^ 31)), (0x1A8, w32 (rtrTime (flrMs * 1000000)))]

/-- R295, R296, R297, R307: a 64-bit, non-prefetchable BAR0; power management with No_Soft_Reset; payloads up to 512 bytes, FLR; completion timeout ranges
A to D and disable, 10-bit tags; 64 vectors; ECRC; 8 virtual functions; selective IDE with PCRC for 9 streams of two address blocks. -/
def pfWords : Tbl Word :=
  [(0x0, 0x4E011D9C#32), (0x4, 0x00100000#32), (0x8, 0x12000000#32), (0x10, 0x4#32), (0x34, 0x40#32), (0x40, 0x00037001#32), (0x44, 0x8#32)] ++
  [(0x70, 0x0002B010#32), (0x74, 0x10008022#32), (0x78, 0x2000#32), (0x7C, 0x105#32), (0x94, 0x0003001F#32), (0x9C, 0x3E#32)] ++
  [(0xB0, 0x003F0011#32), (0xB4, 0x000F0000#32), (0xB8, 0x000F8000#32)] ++
  [(0x100, 0x14020001#32), (0x10C, 0x00462030#32), (0x114, 0x2000#32), (0x118, 0xA0#32)] ++
  [(0x140, 0x18010010#32), (0x14C, 0x00080008#32), (0x154, 0x00010001#32), (0x158, 0x4E020000#32), (0x15C, 0x11#32), (0x160, 0x1#32), (0x164, 0x4#32), (0x16C, 0x4#32)] ++
  [(0x180, 0x1A01002E#32), (0x1A0, 0x1C010022#32)] ++ rtrWords 200 ++ [(0x1C0, 0x00010030#32), (0x1C4, 0x00080062#32)] ++
  (List.range 9).map (fun i => (ideBlock i, 2#32))
/-- A virtual function: its BARs stand in the SR-IOV capability, its payload size and timeouts are those of the physical function; 248 vectors. -/
def vfWords : Tbl Word :=
  [(0x0, 0x4E021D9C#32), (0x4, 0x00100000#32), (0x8, 0x12000000#32), (0x34, 0x40#32), (0x40, 0x00037001#32), (0x44, 0x8#32)] ++
  [(0x70, 0x0002B010#32), (0x74, 0x10008022#32), (0x94, 0x0003001F#32)] ++ [(0xB0, 0x00F70011#32), (0xB4, 0x000F0000#32), (0xB8, 0x000F8000#32)] ++
  [(0x100, 0x18020001#32), (0x180, 0x1A01002E#32), (0x1A0, 0x00010022#32)] ++ rtrWords 120
/-- Words of the configuration space at reset. -/
def cfgReset (fn : Fn) (off : Nat) : Word := match fn with | .vf _ => tget vfWords off 0 | _ => tget pfWords off 0

/-- Bits of an IDE stream's registers that take writes: enable, PCRC, traffic class, default stream, identifier; the RID block; two address blocks. -/
def ideMask (i o : Nat) : Word :=
  let x := o - ideBlock i
  if x = 0x4 then 0xFF780101#32 else if x = 0xC then 0x00FFFF00#32 else if x = 0x10 then 0x00FFFF01#32
  else if x = 0x14 ∨ x = 0x20 then 0xFFFFFF01#32 else if 0x14 < x ∧ x < 0x2C then 0xFFFFFFFF#32 else 0
def pfMask : Tbl Word :=
  [(0x4, 0x146#32), (0x10, 0xFC000000#32), (0x14, 0xFFFFFFFF#32), (0x44, 0x3#32), (0x78, 0x71EF#32), (0x98, 0x101F#32), (0xB0, 0xC0000000#32)] ++
  [(0x104, 0x003FF030#32), (0x108, 0x003FF030#32), (0x10C, 0x003FF030#32), (0x114, 0x31C1#32), (0x118, 0x140#32)] ++
  [(0x148, 0x9#32), (0x150, 0xFFFF#32), (0x160, 0x11#32), (0x164, 0xFFF00000#32), (0x168, 0xFFFFFFFF#32), (0x16C, 0xFFFFF000#32), (0x170, 0xFFFFFFFF#32)]
def vfMask : Tbl Word := [(0x4, 0x4#32), (0x44, 0x3#32), (0xB0, 0xC0000000#32), (0x104, 0x003FF030#32)]
/-- The bits of a word that a write reaches. -/
def cfgMask (fn : Fn) (off : Nat) : Word :=
  match fn with
  | .vf _ => tget vfMask off 0
  | _ => if 0x1CC ≤ off ∧ off < ideBlock 9 then ideMask ((off - 0x1CC) / 0x2C) off else tget pfMask off 0

/-- A field that holds a code which the function does not support: a payload above 512 bytes, a read request above 4,096 bytes, a power state
other than D0 and D3hot, a system page size other than 4 KiB and 64 KiB. -/
def cfgUnsupported (off : Nat) (v : Word) : Bool :=
  if off = 0x78 then decide (2 < fld v 7 5) || decide (5 < fld v 14 12)
  else if off = 0x44 then fld v 1 0 == 1 || fld v 1 0 == 2
  else if off = 0x160 then v != 1#32 && v != 0x10#32
  else false
/-- A word after a write. (log 8: PRESUMED.) -/
def cfgPut (fn : Fn) (off : Nat) (old v : Word) : Word :=
  let m := cfgMask fn off
  if off = AER then old &&& ~~~(v &&& m)
  else
    let new := (old &&& ~~~m) ||| (v &&& m)
    if cfgUnsupported off new then old else new

end Sys2Proof.Machine
end

