-- ==== Sys2Proof/Machine/Float.lean ====
section
/-! DEFINITION. Binary16 and binary32 arithmetic of the matrix and vector engines (R146 to R148, R151, R155, R156, R159). A
finite value is a sign, a magnitude and a power of two; nothing is rounded but by the functions named in the spec. -/
namespace Sys2Proof

/-- A float as read: a NaN (signalling or not), an infinity, or the finite value (-1)^neg × m × 2^e. -/
inductive Val
  | nan (sig : Bool)
  | inf (neg : Bool)
  | fin (neg : Bool) (m : Nat) (e : Int)
  deriving DecidableEq, Repr

/-- The flags an operation raises (R160). -/
structure Fl where
  inv : Bool := false
  ovf : Bool := false
  flush : Bool := false
  deriving DecidableEq, Repr

def Fl.or (a b : Fl) : Fl := { inv := a.inv || b.inv, ovf := a.ovf || b.ovf, flush := a.flush || b.flush }

/-- The canonical NaNs (R147, R155; deviation 4). -/
def nan32 : Word := 0x7FC00000#32
def nan16 : Word := 0x7E00#32
def negZero32 : Word := 0x80000000#32

/-- The binary32 value of a word, subnormals at full value. -/
def dec32 (w : Word) : Val :=
  let s := bit w 31; let x := fld w 30 23; let f := fld w 22 0
  if x = 255 then (if f = 0 then .inf s else .nan (!(bit w 22)))
  else if x = 0 then .fin s f (-149) else .fin s (f + 2 ^ 23) ((x : Int) - 150)

/-- The binary16 value of the low 16 bits of a word. -/
def dec16 (w : Word) : Val :=
  let s := bit w 15; let x := fld w 14 10; let f := fld w 9 0
  if x = 31 then (if f = 0 then .inf s else .nan (!(bit w 9)))
  else if x = 0 then .fin s f (-24) else .fin s (f + 2 ^ 10) ((x : Int) - 25)

/-- R145: a binary32 subnormal becomes a zero of its sign; whether it did. -/
def ftz (w : Word) : Word × Bool :=
  if fld w 30 23 = 0 ∧ fld w 22 0 ≠ 0 then (w &&& negZero32, true) else (w, false)

/-- A magnitude m × 2^e; `st` says that the true magnitude lies strictly between it and (m + 1) × 2^e. -/
structure Ex where
  neg : Bool
  m : Nat
  e : Int
  st : Bool := false
  deriving DecidableEq, Repr

/-- A result before rounding. -/
inductive Res
  | nan
  | inf (neg : Bool)
  | ex (x : Ex)
  deriving DecidableEq, Repr

/-- m × 2^e in units of 2^q, truncated toward zero. -/
def truncAt (m : Nat) (e q : Int) : Nat :=
  if e ≥ q then m <<< (e - q).toNat else m >>> (q - e).toNat

/-- m × 2^e in units of 2^q, rounded to nearest, ties to even. -/
def roundAt (m : Nat) (e : Int) (st : Bool) (q : Int) : Nat :=
  if e ≥ q then m <<< (e - q).toNat
  else
    let sh := (q - e).toNat
    let k := m >>> sh
    let r := m % 2 ^ sh
    let h := 2 ^ (sh - 1)
    if r > h ∨ (r = h ∧ (st ∨ k % 2 = 1)) then k + 1 else k

/-- The binary32 word of (-1)^neg × k × 2^q, which is a normal number of 24 bits or fewer. -/
def enc32 (neg : Bool) (k : Nat) (q : Int) : Word :=
  let top := k.log2
  let f := (if top ≤ 23 then k <<< (23 - top) else k >>> (top - 23)) % 2 ^ 23
  w32 (b2n neg * 2 ^ 31 + ((q + top + 127).toNat * 2 ^ 23) + f)

def inf32 (neg : Bool) : Word := w32 (b2n neg * 2 ^ 31 + 255 * 2 ^ 23)
def inf16 (neg : Bool) : Word := w32 (b2n neg * 2 ^ 15 + 31 * 2 ^ 10)

/-- R147: the single rounding into binary32. -/
def finish32 (x : Ex) : Word × Fl :=
  if x.m = 0 ∧ x.st = false then (w32 (b2n x.neg * 2 ^ 31), {})
  else if x.m = 0 then (w32 (b2n x.neg * 2 ^ 31), { flush := true })
  else
    let q : Int := x.e + x.m.log2 - 23
    let k := roundAt x.m x.e x.st q
    let top : Int := q + k.log2
    if top ≥ 128 then (inf32 x.neg, { ovf := true })
    else if top < -126 then (w32 (b2n x.neg * 2 ^ 31), { flush := true })
    else (enc32 x.neg k q, {})

/-- The exponent of the last place of binary16 at a magnitude of top bit `top` (subnormals included). -/
def q16 (top : Int) : Int := max (top - 10) (-24)

/-- The binary16 word of (-1)^neg × k × 2^q with q a spacing of binary16; a magnitude of 65,536 is an infinity (R155, R156). -/
def enc16 (neg : Bool) (k : Nat) (q : Int) : Word × Fl :=
  let s := b2n neg * 2 ^ 15
  if k = 0 then (w32 s, {})
  else
    let top : Int := q + k.log2
    if top ≥ 16 then (inf16 neg, { ovf := true })
    else if top < -14 then (w32 (s + k * 2 ^ (q + 24).toNat), {})
    else
      let f := (if k.log2 ≤ 10 then k <<< (10 - k.log2) else k >>> (k.log2 - 10)) % 2 ^ 10
      (w32 (s + (top + 15).toNat * 2 ^ 10 + f), {})

/-- R155: to binary16, nearest even. -/
def round16 (x : Ex) : Word × Fl :=
  if x.m = 0 then (w32 (b2n x.neg * 2 ^ 15), {})
  else
    let q := q16 (x.e + x.m.log2)
    enc16 x.neg (roundAt x.m x.e x.st q) q

/-- R156: to binary16, stochastically, with the 16 random bits `u`. -/
def stoch16 (x : Ex) (u : Nat) : Word × Fl :=
  if x.m = 0 then (w32 (b2n x.neg * 2 ^ 15), {})
  else
    let top : Int := x.e + x.m.log2
    if top ≥ 16 then (inf16 x.neg, { ovf := true })
    else
      let q := q16 top
      let lo := truncAt x.m x.e q
      let t := truncAt x.m x.e (q - 16) % 65536
      enc16 x.neg (if t + u ≥ 65536 then lo + 1 else lo) q

/-- The value, as a result that needs rounding; a signalling NaN sets INV (deviations 4 and 5). -/
def Val.toRes : Val → Res × Fl
  | .nan s => (.nan, { inv := s })
  | .inf n => (.inf n, {})
  | .fin n m e => (.ex { neg := n, m := m, e := e }, {})

def Val.isNan : Val → Bool | .nan _ => true | _ => false
def Val.isSig : Val → Bool | .nan s => s | _ => false
def Val.isZero : Val → Bool | .fin _ 0 _ => true | _ => false
def Val.sign : Val → Bool | .nan _ => false | .inf n => n | .fin n _ _ => n

/-- R147, R172: a result rounded to binary32. -/
def Res.to32 : Res → Word × Fl
  | .nan => (nan32, {})
  | .inf n => (inf32 n, {})
  | .ex x => finish32 x

/-- R155, R156: a result rounded to binary16; `u` is the random bits of stochastic rounding, none for nearest even. -/
def Res.to16 (u : Option Nat) : Res → Word × Fl
  | .nan => (nan16, {})
  | .inf n => (inf16 n, {})
  | .ex x => match u with
    | none => round16 x
    | some k => stoch16 x k

/-- R155: conversion of a binary32 value to OFMT 0, 1 (random bits) or 2. -/
def convert (v : Word) (ofmt u : Nat) : Word × Fl :=
  if ofmt = 2 then (v, {})
  else (dec32 v).toRes.1.to16 (if ofmt = 1 then some u else none)

/-- The exact sum of two finite magnitudes; a zero is negative only if `zneg`. -/
def exAdd (n1 : Bool) (m1 : Nat) (e1 : Int) (n2 : Bool) (m2 : Nat) (e2 : Int) (zneg : Bool) : Ex :=
  let e := min e1 e2
  let a : Int := (m1 <<< (e1 - e).toNat : Nat)
  let b : Int := (m2 <<< (e2 - e).toNat : Nat)
  let r := (if n1 then -a else a) + (if n2 then -b else b)
  if r = 0 then { neg := zneg, m := 0, e := e } else { neg := decide (r < 0), m := r.natAbs, e := e }

/-- IEEE 754 addition, unrounded, on values as read. -/
def addV (x y : Val) : Res × Fl :=
  match x, y with
  | .nan a, .nan b => (.nan, { inv := a || b })
  | .nan a, _ => (.nan, { inv := a })
  | _, .nan b => (.nan, { inv := b })
  | .inf a, .inf b => if a = b then (.inf a, {}) else (.nan, { inv := true })
  | .inf a, _ => (.inf a, {})
  | _, .inf b => (.inf b, {})
  | .fin a m e, .fin b n f => (.ex (exAdd a m e b n f (a && b && m == 0 && n == 0)), {})

/-- IEEE 754 multiplication, unrounded. -/
def mulV (x y : Val) : Res × Fl :=
  match x, y with
  | .nan a, .nan b => (.nan, { inv := a || b })
  | .nan a, _ => (.nan, { inv := a })
  | _, .nan b => (.nan, { inv := b })
  | .inf a, .inf b => (.inf (a != b), {})
  | .inf a, .fin b m _ => if m = 0 then (.nan, { inv := true }) else (.inf (a != b), {})
  | .fin a m _, .inf b => if m = 0 then (.nan, { inv := true }) else (.inf (a != b), {})
  | .fin a m e, .fin b n f => (.ex { neg := a != b, m := m * n, e := e + f }, {})

/-- A × B + C with no rounding between (R104 `fma`). Infinity times zero sets INV beside a quiet NaN addend too. (log 146: DESIGN CHOICE.) -/
def fmaV (x y z : Val) : Res × Fl :=
  let sig := x.isSig || y.isSig || z.isSig
  match mulV x y with
  | (.nan, fl) => (.nan, { inv := fl.inv || sig })
  | (.inf a, _) => match z with
    | .nan _ => (.nan, { inv := sig })
    | .inf b => if a = b then (.inf a, {}) else (.nan, { inv := true })
    | _ => (.inf a, {})
  | (.ex p, _) => match z with
    | .nan _ => (.nan, { inv := sig })
    | .inf b => (.inf b, {})
    | .fin b n f => (.ex (exAdd p.neg p.m p.e b n f (p.neg && b && p.m == 0 && n == 0)), {})

/-- Negation of a value. -/
def Val.negate : Val → Val
  | .nan s => .nan s
  | .inf n => .inf (!n)
  | .fin n m e => .fin (!n) m e

/-- R148: binary32 addition of two words that hold no subnormal. -/
def add32 (x y : Word) : Word × Fl :=
  let r := addV (dec32 x) (dec32 y)
  let o := r.1.to32
  (o.1, r.2.or o.2)

/-- R148: binary32 multiplication. -/
def mul32 (x y : Word) : Word × Fl :=
  let r := mulV (dec32 x) (dec32 y)
  let o := r.1.to32
  (o.1, r.2.or o.2)

/-- R151: an operand as binary32. -/
def widen (f32 : Bool) (w : Word) : Word × Fl :=
  if f32 then
    let z := ftz w
    match dec32 z.1 with
    | .nan s => (nan32, { inv := s })
    | _ => (z.1, { flush := z.2 })
  else
    match dec16 w with
    | .nan s => (nan32, { inv := s })
    | v => (v.toRes.1.to32.1, {})

/-- One level of the tree of R148: neighbours added. -/
def treeLevel : List Word → List Word × Fl
  | a :: b :: r =>
    let s := add32 a b
    let t := treeLevel r
    (s.1 :: t.1, s.2.or t.2)
  | l => (l, {})

/-- R148: the tree on 32 words. -/
def tree32 (l : List Word) : Word × Fl :=
  let a := treeLevel l
  let b := treeLevel a.1
  let c := treeLevel b.1
  let d := treeLevel c.1
  let e := treeLevel d.1
  (e.1.headD 0, a.2.or (b.2.or (c.2.or (d.2.or e.2))))

/-- R148: `chunk_accumulate` in binary32 mode on the words of A and B as read. -/
def chunkS (acc : Word) (a b : List Word) : Word × Fl :=
  let ps := (a.zip b).map (fun x =>
    let u := ftz x.1
    let v := ftz x.2
    let p := mul32 u.1 v.1
    (p.1, p.2.or { flush := u.2 || v.2 }))
  let fl := ps.foldl (fun f p => f.or p.2) ({} : Fl)
  let t := tree32 (ps.map (·.1) ++ List.replicate (32 - ps.length) negZero32)
  let z := ftz acc
  let r := add32 z.1 t.1
  (r.1, fl.or (t.2.or (r.2.or { flush := z.2 })))

/-- The exact sum of finite products in units of 2^-48 (R146). -/
def sum48 (l : List (Val × Val)) : Int :=
  l.foldl (fun s x => match x with
    | (.fin a m e, .fin b n f) =>
      let v : Int := ((m * n) <<< (e + f + 48).toNat : Nat)
      if a = b then s + v else s - v
    | _ => s) 0

/-- R147: `chunk_accumulate` in binary16 mode; `acc` is a binary32 word, the operands are as read. -/
def chunkH (acc : Word) (a b : List Word) : Word × Fl :=
  let ps := (a.map dec16).zip (b.map dec16)
  let sig := ps.any (fun x => x.1.isSig || x.2.isSig)
  let isInf : Val → Bool := fun v => match v with | .inf _ => true | _ => false
  if ps.any (fun x => x.1.isNan || x.2.isNan) then (nan32, { inv := sig })
  else if ps.any (fun x => (isInf x.1 && x.2.isZero) || (x.1.isZero && isInf x.2)) then (nan32, { inv := true })
  else
    let infs := ps.filter (fun x => isInf x.1 || isInf x.2)
    let pos := infs.any (fun x => x.1.sign == x.2.sign)
    let neg := infs.any (fun x => x.1.sign != x.2.sign)
    if pos && neg then (nan32, { inv := true })
    else
    let z := ftz acc
    let fl : Fl := { flush := z.2 }
    match dec32 z.1 with
    | .nan sg => (nan32, { inv := sg })
    | .inf n =>
      if (pos && n) || (neg && !n) then (nan32, { inv := true }) else (acc, {})
    | .fin n m e =>
      if pos || neg then (inf32 neg, fl)
      else
        let s := sum48 ps
        let zneg := n && m == 0 && ps.all (fun x => (x.1.isZero || x.2.isZero) && x.1.sign != x.2.sign)
        let r := finish32 (exAdd n m e (decide (s < 0)) s.natAbs (-48) zneg)
        (r.1, r.2.or fl)

/-- R153: the order of maximum and minimum: whether `x` is less than `y` (NaN above every number, +0.0 above -0.0). -/
def ltV (x y : Val) : Bool :=
  match x, y with
  | .nan _, _ => false
  | _, .nan _ => true
  | .inf a, .inf b => a && !b
  | .inf a, _ => a
  | _, .inf b => !b
  | .fin a m e, .fin b n f =>
    let r := exAdd a m e (!b) n f false
    if r.m = 0 then (m == 0 && a && !b) else r.neg

/-- IEEE 754 compareQuietLess (R175). -/
def quietLt (x y : Val) : Bool :=
  if x.isNan || y.isNan then false
  else if x.isZero && y.isZero then false else ltV x y

end Sys2Proof
end

