-- ==== Sys2Proof/Machine/Real.lean ====
section
/-! DEFINITION. The functions of the vector engine on exact values (R172 to R175). `exp`, `log`, `tanh`, `sigm`, `gelu` and `gelud` are
evaluated in fixed point with 640 fraction bits, far past the last place that the one rounding of R172 looks at (DEDUCED, log 15). -/
namespace Sys2Proof

/-- Fraction bits of the fixed point. -/
def fxP : Nat := 640
def fxOne : Int := 2 ^ 640

def fxMul (a b : Int) : Int := (a * b) >>> fxP

/-- Integer square root, by bits. -/
def isqrtGo : Nat → Nat → Nat → Nat
  | 0, _, r => r
  | k + 1, n, r => if (r + 2 ^ k) * (r + 2 ^ k) ≤ n then isqrtGo k n (r + 2 ^ k) else isqrtGo k n r

def isqrt (n : Nat) : Nat := isqrtGo (n.log2 / 2 + 1) n 0

/-- t + t^3/3 + t^5/5 + …, with alternating signs for the arc tangent. -/
def fxSeries (alt : Bool) : Nat → Nat → Int → Int → Int
  | 0, _, _, _ => 0
  | k + 1, i, p, t2 =>
    let v := p / (2 * i + 1 : Nat)
    (if alt && i % 2 == 1 then -v else v) + fxSeries alt k (i + 1) (fxMul p t2) t2

def fxAtanh (t : Int) : Int := fxSeries false 230 0 t (fxMul t t)
def fxAtan (t : Int) : Int := fxSeries true 290 0 t (fxMul t t)
def fxLn2 : Int := 2 * fxAtanh (fxOne / 3)
def fxPi : Int := 16 * fxAtan (fxOne / 5) - 4 * fxAtan (fxOne / 239)
/-- The normal density at 0. -/
def fxPhi0 : Int := (isqrt ((2 ^ 1920) / (2 * fxPi).toNat) : Nat)

/-- The sum of r^n / n!, from term `i` on, `v` the term before. -/
def fxExpSum : Nat → Nat → Int → Int → Int
  | 0, _, _, _ => 0
  | k + 1, i, v, r =>
    let u := fxMul v r / (i : Int)
    u + fxExpSum k (i + 1) u r

/-- e^x as t × 2^k, 1 ≤ t < 2 in fixed point. -/
def fxExp (x : Int) : Int × Int :=
  let k := x / fxLn2
  let r := x - k * fxLn2
  (fxOne + fxExpSum 150 1 fxOne r, k)

/-- The exact fixed point of a finite value whose last place is at 2^-640 or above. -/
def fxOf (neg : Bool) (m : Nat) (e : Int) : Int :=
  let v : Int := (truncAt m e (-640) : Nat)
  if neg then -v else v

/-- An irrational result from its fixed point. -/
def fxEx (v : Int) : Ex := { neg := decide (v < 0), m := v.natAbs, e := -640, st := true }

/-- A magnitude just above 1 × 2^e. -/
def above (neg : Bool) (m : Nat) (e : Int) : Ex := { neg := neg, m := m * 2 ^ 100, e := e - 100, st := true }
/-- A magnitude just below m × 2^e. -/
def below (neg : Bool) (m : Nat) (e : Int) : Ex := { neg := neg, m := m * 2 ^ 100 - 1, e := e - 100, st := true }

/-- Whether m × 2^e ≥ 2^k. -/
def geTwo (m : Nat) (e k : Int) : Bool := m != 0 && decide (e + m.log2 ≥ k)

/-- e^x. -/
def expR (neg : Bool) (m : Nat) (e : Int) : Ex :=
  if m = 0 then { neg := false, m := 1, e := 0 }
  else if geTwo m e 8 then (if neg then above false 1 (-400) else above false 1 400)
  else
    let r := fxExp (fxOf neg m e)
    { neg := false, m := r.1.natAbs, e := r.2 - 640, st := true }

/-- ln of a positive value. -/
def logR (m : Nat) (e : Int) : Ex :=
  let l := m.log2
  let k0 : Int := e + l
  let y0 : Int := ((m <<< 640) >>> l : Nat)
  let big := decide (y0 * y0 > 2 * fxOne * fxOne)
  let k := if big then k0 + 1 else k0
  let y := if big then y0 / 2 else y0
  if k = 0 ∧ y = fxOne then { neg := false, m := 0, e := 0 }
  else fxEx (k * fxLn2 + 2 * fxAtanh (((y - fxOne) * fxOne) / (y + fxOne)))

/-- tanh. -/
def tanhR (neg : Bool) (m : Nat) (e : Int) : Ex :=
  if m = 0 then { neg := neg, m := 0, e := 0 }
  else if geTwo m e 8 then below neg 1 0
  else if !(geTwo m e (-40)) then below neg m e
  else
    let r := fxExp (2 * fxOf false m e)
    let t : Int := r.1 <<< r.2.toNat
    let v := ((t - fxOne) * fxOne) / (t + fxOne)
    { neg := neg, m := v.natAbs, e := -640, st := true }

/-- 1 / (1 + e^-x). -/
def sigmR (neg : Bool) (m : Nat) (e : Int) : Ex :=
  if m = 0 then { neg := false, m := 1, e := -1 }
  else if geTwo m e 8 then (if neg then above false 1 (-400) else below false 1 0)
  else
    let r := fxExp (fxOf (!neg) m e)
    let d : Int := fxOne + (if r.2 ≥ 0 then r.1 <<< r.2.toNat else r.1 >>> (-r.2).toNat)
    { neg := false, m := 2 ^ 1920 / d.natAbs, e := -1280, st := true }

/-- The sum x + x^3/3!! + x^5/5!! + … . -/
def fxOdd : Nat → Nat → Int → Int → Int
  | 0, _, _, _ => 0
  | k + 1, i, v, x2 => v + fxOdd k (i + 1) (fxMul v x2 / (2 * i + 3 : Nat)) x2

/-- The normal density and distribution at x. -/
def fxNormal (x : Int) : Int × Int :=
  let x2 := fxMul x x
  let r := fxExp (-(x2 / 2))
  let dens := fxMul fxPhi0 (r.1 >>> (-r.2).toNat)
  (dens, fxOne / 2 + fxMul dens (fxOdd 640 0 x x2))

/-- x Φ(x). -/
def geluR (neg : Bool) (m : Nat) (e : Int) : Ex :=
  if m = 0 then { neg := neg, m := 0, e := 0 }
  else if geTwo m e 4 then (if neg then above true 1 (-400) else below false m e)
  else if !(geTwo m e (-40)) then (if neg then below true m (e - 1) else above false m (e - 1))
  else
    let x := fxOf neg m e
    fxEx (fxMul x (fxNormal x).2)

/-- Φ(x) + x φ(x). -/
def geludR (neg : Bool) (m : Nat) (e : Int) : Ex :=
  if m = 0 then { neg := false, m := 1, e := -1 }
  else if geTwo m e 4 then (if neg then above true 1 (-400) else above false 1 0)
  else
    let x := fxOf neg m e
    let n := fxNormal x
    fxEx (n.2 + fxMul x n.1)

/-- √ of a positive value, exact where it is. -/
def sqrtR (m : Nat) (e : Int) : Ex :=
  let odd := decide (e % 2 = 1)
  let n := (if odd then 2 * m else m) <<< 200
  let r := isqrt n
  { neg := false, m := r, e := (if odd then e - 1 else e) / 2 - 100, st := decide (r * r ≠ n) }

/-- R173: truncation to a quarter of the last place of the format. In binary32 mode F is binary32 whatever dD's format is; the
conversion follows (log 99: DEDUCED). -/
def guard4 (f16 : Bool) (x : Ex) : Ex :=
  if x.m = 0 then x
  else
    let top : Int := x.e + x.m.log2
    let q := if f16 then q16 top else top - 23
    { neg := x.neg, m := truncAt x.m x.e (q - 2), e := q - 2 }

/-- a / b truncated far below the guard grid. -/
def quotR (neg : Bool) (m : Nat) (e : Int) (n : Nat) (f : Int) : Ex :=
  { neg := neg, m := (m <<< 400) / n, e := e - f - 400 }

/-- 1 / √x truncated far below the guard grid. -/
def rsqrtR (m : Nat) (e : Int) : Ex :=
  let odd := decide (e % 2 = 1)
  let n := if odd then 2 * m else m
  { neg := false, m := isqrt ((1 <<< 600) / n), e := -((if odd then e - 1 else e) / 2) - 300 }

/-- R173, R174: division before the rounding of R172. -/
def divV (f16 : Bool) (x y : Val) : Res × Fl :=
  match x, y with
  | .nan a, .nan b => (.nan, { inv := a || b })
  | .nan a, _ => (.nan, { inv := a })
  | _, .nan b => (.nan, { inv := b })
  | .inf _, .inf _ => (.nan, { inv := true })
  | .inf a, .fin b _ _ => (.inf (a != b), {})
  | .fin a _ _, .inf b => (.ex { neg := a != b, m := 0, e := 0 }, {})
  | .fin a m e, .fin b n f =>
    if n = 0 then (if m = 0 then (.nan, { inv := true }) else (.inf (a != b), {}))
    else if m = 0 then (.ex { neg := a != b, m := 0, e := 0 }, {})
    else (.ex (guard4 f16 (quotR (a != b) m e n f)), {})

/-- A value that passes unchanged to the rounding of R172 (R175); other signalling operands set INV too (deviation 5). -/
def pass (sig : Bool) (v : Val) : Res × Fl :=
  let r := v.toRes
  (r.1, { inv := r.2.inv || sig })

/-- R106: whether a mask element counts as nonzero. -/
def Val.nonzero (v : Val) : Bool := !v.isZero

/-- R104, R172 to R175: the result of a `vop` function before rounding; `f16` is binary16 mode; c is FN 0x15's mask value and
0x04's addend. Functions outside the table, `cvt` to int32 and `drop` are elsewhere. -/
def vopRes (fn : Nat) (f16 : Bool) (a b c : Val) : Res × Fl :=
  match fn with
  | 0x00 => a.toRes
  | 0x01 => addV a b
  | 0x02 => addV a b.negate
  | 0x03 => mulV a b
  | 0x04 => fmaV a b c
  | 0x05 => pass (a.isSig || b.isSig) (if ltV b a then b else a)
  | 0x06 => pass (a.isSig || b.isSig) (if ltV a b then b else a)
  | 0x07 => pass false (match a with | .nan s => .nan s | .inf _ => .inf false | .fin _ m e => .fin false m e)
  | 0x08 => pass false a.negate
  | 0x09 => pass false (if ltV a (.fin false 0 0) then .fin false 0 0 else a)
  | 0x0A => match a with
    | .nan s => (.nan, { inv := s })
    | .inf n => if n then (.ex { neg := false, m := 0, e := 0 }, {}) else (.inf false, {})
    | .fin n m e => (.ex (expR n m e), {})
  | 0x0B => match a with
    | .nan s => (.nan, { inv := s })
    | .inf n => if n then (.nan, { inv := true }) else (.inf false, {})
    | .fin n m e => if m = 0 then (.inf true, {}) else if n then (.nan, { inv := true }) else (.ex (logR m e), {})
  | 0x0C => match a with
    | .nan s => (.nan, { inv := s })
    | .inf n => (.ex { neg := n, m := 1, e := 0 }, {})
    | .fin n m e => (.ex (tanhR n m e), {})
  | 0x0D => match a with
    | .nan s => (.nan, { inv := s })
    | .inf n => if n then (.ex { neg := true, m := 0, e := 0 }, {}) else (.inf false, {})
    | .fin n m e => (.ex (geluR n m e), {})
  | 0x0E => match a with
    | .nan s => (.nan, { inv := s })
    | .inf n => (.ex { neg := n, m := if n then 0 else 1, e := 0 }, {})
    | .fin n m e => (.ex (geludR n m e), {})
  | 0x0F => match a with
    | .nan s => (.nan, { inv := s })
    | .inf n => (.ex { neg := false, m := if n then 0 else 1, e := 0 }, {})
    | .fin n m e => (.ex (sigmR n m e), {})
  | 0x10 => divV f16 (.fin false 1 0) a
  | 0x11 => match a with
    | .nan s => (.nan, { inv := s })
    | .inf n => if n then (.nan, { inv := true }) else (.ex { neg := false, m := 0, e := 0 }, {})
    | .fin n m e =>
      if m = 0 then (.inf n, {}) else if n then (.nan, { inv := true }) else (.ex (guard4 f16 (rsqrtR m e)), {})
  | 0x12 => divV f16 a b
  | 0x13 => match a with
    | .nan s => (.nan, { inv := s })
    | .inf n => if n then (.nan, { inv := true }) else (.inf false, {})
    | .fin n m e =>
      if m = 0 then (.ex { neg := n, m := 0, e := 0 }, {}) else if n then (.nan, { inv := true }) else (.ex (sqrtR m e), {})
  | 0x14 => (.ex { neg := false, m := if quietLt a b then 1 else 0, e := 0 }, { inv := a.isSig || b.isSig })
  | _ => pass (a.isSig || b.isSig || c.isSig) (if c.nonzero then a else b)

end Sys2Proof
end

