-- ==== Sys2Proof/Machine/Tensor.lean ====
section
/-! DEFINITION. Tensor descriptors (R91 to R94), the addresses they give (R92), the walk (R93) and the byte ranges they cover. -/
namespace Sys2Proof.Machine

/-! ### Fields of a descriptor (R91) -/
def dAddr (d : Desc) : Nat := fld d 47 0
def dSpace (d : Desc) : Nat := fld d 49 48
def dFmt (d : Desc) : Nat := fld d 66 64
def dComp (d : Desc) : Bool := bit d 67
def dNdim (d : Desc) : Nat := fld d 70 68
def dParam (d : Desc) : Bool := bit d 71
def dTR (d : Desc) : Nat := fld d 76 72 + 1
def dTC (d : Desc) : Nat := fld d 81 77 + 1
/-- EXTn as stored. -/
def dExtRaw (d : Desc) (n : Nat) : Nat := fld d (111 + 16 * n) (96 + 16 * n)
/-- The extent of dimension n in the walk: 1 at or above NDIM (R93). -/
def dExt (d : Desc) (n : Nat) : Nat := if n < dNdim d then dExtRaw d n else 1
def dPcount (d : Desc) : Nat := fld d 191 176
def dStride (d : Desc) (n : Nat) : Int := signed 32 (fld d (223 + 32 * n) (192 + 32 * n))
def dPstride (d : Desc) : Int := signed 32 (fld d 383 352)
def dPidx (d : Desc) : Nat := fld d 399 384
def dHT (d : Desc) : Nat := fld d 403 400
def dHB (d : Desc) : Nat := fld d 407 404
def dHL (d : Desc) : Nat := fld d 411 408
def dHR (d : Desc) : Nat := fld d 415 412
def dPad (d : Desc) : Word := w32 (fld d 447 416)

/-- Element size in bytes. -/
def dSize (d : Desc) : Nat := if dFmt d = 0 then 2 else 4

/-- R94: the faults that `dsc.ld` and `dsc.wr` refuse. -/
def dBad (d : Desc) : Bool :=
  fld d 63 50 != 0 || fld d 95 82 != 0 || fld d 511 448 != 0 || dFmt d > 2 || dNdim d == 0 || dNdim d > 5 ||
  (List.range 5).any (fun n => if n < dNdim d then dExtRaw d n == 0 else dExtRaw d n != 0) ||
  dPcount d == 0 || dHT d > 8 || dHB d > 8 || dHL d > 8 || dHR d > 8 ||
  (dFmt d == 0 && fld d 447 432 != 0) || (dComp d && dSpace d == 0) || (dParam d && dSpace d != 2)

/-- R52, R92: the view an instruction takes of a descriptor, `ro` the override value and `rp` the problem register's value. -/
def mkView (d : Desc) (ro rp : Nat) : View :=
  let p := dPidx d + rp
  { d := d, base := (dAddr d + ro : Nat) + (p : Int) * dPstride d, p := p }

/-- R53: the problem index is out of range. -/
def vRange (v : View) : Bool := v.p + 1 > dPcount v.d

/-- R92: the address of the element at indices i0 … (a list, dimension 0 first). -/
def vAddrGo (d : Desc) : Nat → List Int → Int → Int
  | _, [], a => a
  | n, i :: r, a => vAddrGo d (n + 1) r (if n < dNdim d then a + i * dStride d n else a)

def vAddr (v : View) (i : List Int) : Int := vAddrGo v.d 0 i v.base

/-- The lowest and the highest element address. -/
def vBounds (v : View) : Int × Int :=
  (List.range (dNdim v.d)).foldl (fun b n =>
    let t := ((dExt v.d n : Int) - 1) * dStride v.d n
    (b.1 + min 0 t, b.2 + max 0 t)) (v.base, v.base)

/-- Some element lies beyond data SRAM (R73, R97). -/
def vBeyond (v : View) : Bool :=
  let b := vBounds v
  b.1 < 0 || b.2 + dSize v.d > 0x40000

/-- The base, the stride of a dimension below NDIM or PSTRIDE is no multiple of the element size (R97). (log 143: DEDUCED.) -/
def vMisaligned (v : View) : Bool :=
  v.base % (dSize v.d : Int) != 0 || dPstride v.d % (dSize v.d : Int) != 0 || (List.range (dNdim v.d)).any (fun n => dStride v.d n % (dSize v.d : Int) != 0)

/-- The sums of strides over all indices of the dimensions from n on. -/
def vOffsets (d : Desc) : Nat → Nat → List Int
  | 0, _ => [0]
  | k + 1, n => (vOffsets d k (n + 1)).flatMap (fun o => (List.range (dExt d n)).map (fun (i : Nat) => o + (i : Int) * (if n < dNdim d then dStride d n else 0)))

/-- The byte ranges (start, length) of a view (R95). -/
def vRanges (v : View) : List (Nat × Nat) :=
  let sz := dSize v.d
  if dStride v.d 0 = sz then
    (vOffsets v.d 4 1).map (fun o => ((v.base + o).toNat, sz * dExt v.d 0))
  else if dStride v.d 0 = 0 then (vOffsets v.d 4 1).map (fun o => ((v.base + o).toNat, sz))
  else (vOffsets v.d 5 0).map (fun o => ((v.base + o).toNat, sz))

/-- R99, R186: strides at which an operand runs at full rate. -/
def vFullMx (v : View) : Bool :=
  let sz : Int := dSize v.d
  (dStride v.d 0 == sz && dStride v.d 1 % 64 == 0) || (dStride v.d 1 == sz && dStride v.d 0 % 64 == 0)
def vFullVx (v : View) : Bool :=
  let sz : Int := dSize v.d
  (dStride v.d 0 == sz || dStride v.d 0 == 0) && dStride v.d 1 % 64 == 0

/-! ### The walk (R93) -/

/-- A position of the walk: its indices, dimension 0 first, and whether it is real. -/
structure Pos where
  i : List Int
  real : Bool
  deriving DecidableEq, Repr

def ceilDiv (a b : Nat) : Nat := (a + b - 1) / b

/-- The index vectors of dimensions 2 to 4, dimension 2 first to step. -/
def walkOuter (d : Desc) : List (List Int) :=
  (List.range (dExt d 4)).flatMap (fun (i4 : Nat) => (List.range (dExt d 3)).flatMap (fun (i3 : Nat) =>
    (List.range (dExt d 2)).map (fun (i2 : Nat) => [(i2 : Int), (i3 : Int), (i4 : Int)])))

/-- The tiles of a walk, each a list of positions. -/
def walkTiles (d : Desc) : List (List Pos) :=
  (walkOuter d).flatMap (fun o =>
    (List.range (ceilDiv (dExt d 1) (dTR d))).flatMap (fun t1 =>
      (List.range (ceilDiv (dExt d 0) (dTC d))).map (fun t0 =>
        (List.range (dTR d)).flatMap (fun r => (List.range (dTC d)).map (fun c =>
          let i0 := t0 * dTC d + c
          let i1 := t1 * dTR d + r
          { i := (i0 : Int) :: (i1 : Int) :: o, real := decide (i0 < dExt d 0) && decide (i1 < dExt d 1) })))))

/-- The positions of a walk in order. -/
def walk (d : Desc) : List Pos := (walkTiles d).flatten

/-- The real positions of a walk in order. -/
def walkReal (d : Desc) : List Pos := (walk d).filter (·.real)

/-- How many elements a descriptor addresses. -/
def dCount (d : Desc) : Nat := dExt d 0 * dExt d 1 * dExt d 2 * dExt d 3 * dExt d 4

/-- The raw element at a position, PAD beyond an extent (R93). -/
def vGet (m : Mem) (v : View) (p : Pos) : Word :=
  if p.real then w32 (mreadNat m (vAddr v p.i).toNat (dSize v.d)) else dPad v.d

/-- The raw element at indices, with no padding. -/
def vAt (m : Mem) (v : View) (i : List Int) : Word := w32 (mreadNat m (vAddr v i).toNat (dSize v.d))

/-- Memory with a raw element stored at a position; a position beyond an extent is not written. -/
def vPut (m : Mem) (v : View) (p : Pos) (x : Word) : Mem :=
  if p.real then mwrites m (vAddr v p.i).toNat (leBytes (dSize v.d) x.toNat) else m

/-- The value of a raw element of FMT 0 or 1, as read. -/
def decFmt (f : Nat) (w : Word) : Val := if f = 0 then dec16 w else dec32 w

/-- A stored float element is a NaN, or an infinity. -/
def isNanFmt (f : Nat) (w : Word) : Bool := (decFmt f w).isNan
def isInfFmt (f : Nat) (w : Word) : Bool := match decFmt f w with | .inf _ => true | _ => false

/-! ### Tile frames (R199) and tile tokens (R119) -/

/-- The address of row r of a frame. -/
def frameRow (f32 : Bool) (base r : Nat) : Nat := base + r * (if f32 then 128 else 64)

/-- The R × C elements of a frame, packed row-major. -/
def frameRead (m : Mem) (f32 : Bool) (base rows cols : Nat) : List Byte :=
  let sz := if f32 then 4 else 2
  let sl := mslice m base (if f32 then 4096 else 2048)
  (List.range rows).flatMap (fun r => mreads sl (frameRow f32 base r) (cols * sz))

/-- A packed tile laid into a frame; bytes outside the tile keep their contents. -/
def frameWrite (f32 : Bool) (rowBytes : Nat) : Nat → Mem → Nat → List Byte → Mem
  | 0, m, _, _ => m
  | k + 1, m, a, bs => frameWrite f32 rowBytes k (mwrites m a (bs.take rowBytes)) (a + if f32 then 128 else 64) (bs.drop rowBytes)

end Sys2Proof.Machine
end

