-- ==== Sys2Proof/Machine/Engines.lean ====
section
/-! DEFINITION. What the matrix and the vector engine compute (R97 to R107, R145 to R186), as functions on memory, banks and
flags. The queues, the waits and the reports are in Machine/CoreEvents.lean. -/
namespace Sys2Proof.Machine

/-- The value of a bank position. -/
def bankVal (b : Bank) (m n : Nat) : Word := b.vals.getD (32 * m + n) 0

/-- The lists of chunks of 32 of a row of operands (R98). -/
def chunks : Nat → List Word → List (List Word)
  | 0, _ => []
  | k + 1, l => l.take 32 :: chunks k (l.drop 32)

/-- One position of the bank through all chunks (R98, R149). -/
def mmaPos (f32 : Bool) : List (List Word × List Word) → Word → Word × Fl
  | [], acc => (acc, {})
  | c :: cs, acc =>
    let r := if f32 then chunkS acc c.1 c.2 else chunkH acc c.1 c.2
    let t := mmaPos f32 cs r.1
    (t.1, r.2.or t.2)

/-- R98: the bank's values after an `mma` and the flags raised. -/
def mmaBank (f32 clr : Bool) (m : Mem) (a b : View) (bank : Bank) : List Word × Fl :=
  let mm := dExt a.d 1; let kk := dExt a.d 0; let nn := dExt b.d 0
  let nc := ceilDiv kk 32
  let rows := (List.range mm).map (fun (i : Nat) => chunks nc ((List.range kk).map (fun (k : Nat) => vAt m a [(k : Int), (i : Int)])))
  let cols := (List.range nn).map (fun (n : Nat) => chunks nc ((List.range kk).map (fun (k : Nat) => vAt m b [(n : Int), (k : Int)])))
  let out := (List.range 1024).map (fun q =>
    let i := q / 32; let n := q % 32
    let old := if clr then 0 else bank.vals.getD q 0
    if i < mm ∧ n < nn then mmaPos f32 ((rows.getD i []).zip (cols.getD n [])) old else (old, ({} : Fl)))
  (out.map (·.1), out.foldl (fun f x => f.or x.2) {})

/-- R99, R167: cycles of a pass, and of an `mma`. -/
def mmaPass (f32 : Bool) (a b : View) : Nat := max (dExt a.d 1) 8 * (if f32 then 4 else 1) * (if vFullMx a && vFullMx b then 1 else 4)
def mmaCycles (f32 : Bool) (a b : View) : Nat := ceilDiv (dExt a.d 0) 32 * mmaPass f32 a b

/-- R157: the 16 random bits of element e. -/
def srBits (seed : BitVec 64) (step : Word) (c1 c2hi p rank e : Nat) : Nat :=
  let x := philox (fld seed 31 0) (fld seed 63 32) step.toNat c1 (c2hi * 65536 + p % 65536) (rank % 65536 * 65536 + e / 8 % 65536)
  (x.getD (e % 8 / 2) 0 >>> (if e % 2 = 0 then 0 else 16)) % 65536

/-- R157: counter word c1. -/
def srC1 (layer : BitVec 16) (domain sub : Nat) : Nat := layer.toNat * 65536 + domain * 4096 + sub * 256

/-- What a drain puts out: the region's converted elements row-major, the values before conversion, the flags. -/
structure DrainOut where
  out : List Word
  vals : List Word
  fl : Fl
  deriving DecidableEq, Repr

/-- R151: the elements of a drain. `u` gives the random bits of element index e. -/
def drainOut (m : Mem) (bank : Bank) (m0 rows cols ofmt epi : Nat) (e : Option View) (u : Nat → Nat) : DrainOut :=
  let els := (List.range rows).flatMap (fun (i : Nat) => (List.range cols).map (fun (n : Nat) =>
    let v := bankVal bank (m0 + i) n
    let w : Word × Fl := match e with
      | none => (v, {})
      | some ev =>
        let x := widen (dFmt ev.d == 1) (vAt m ev [(n : Int), (i : Int)])
        let r := if epi = 1 then add32 v x.1 else mul32 v x.1
        (r.1, x.2.or r.2)
    let k := 32 * (m0 + i) + n
    let c := convert w.1 ofmt (if ofmt = 1 then u k else 0)
    (c.1, w.1, w.2.or c.2)))
  { out := els.map (·.1), vals := els.map (·.2.1), fl := els.foldl (fun f x => f.or x.2.2) {} }

/-- The greatest word of a row in the order of R153. -/
def rowMax : List Word → Word
  | [] => inf32 true
  | w :: ws => ws.foldl (fun a b => if ltV (dec32 a) (dec32 b) then b else a) w

/-- The rows of a row-major list. -/
def rowsOf : Nat → Nat → List Word → List (List Word)
  | 0, _, _ => []
  | k + 1, c, l => l.take c :: rowsOf k c (l.drop c)

/-- R152: the row statistics, 2 × 32 words, and the flags of the sums. -/
def rowStats (rows cols : Nat) (vals : List Word) : List Word × Fl :=
  let rs := rowsOf rows cols vals
  let mx := rs.map rowMax ++ List.replicate (32 - rows) (inf32 true)
  let sm := rs.map (fun r => tree32 (r ++ List.replicate (32 - r.length) negZero32))
  (mx ++ sm.map (·.1) ++ List.replicate (32 - rows) negZero32, sm.foldl (fun f x => f.or x.2) {})

/-- The bytes of elements of a float format. -/
def wordsToBytes (f32 : Bool) (l : List Word) : List Byte := l.flatMap (fun w => leBytes (if f32 then 4 else 2) w.toNat)

/-! ### The vector engine -/

/-- What a vector instruction leaves: memory, the walk index of the first NaN written, how many NaNs and whether infinities
were written, the flags, and the count of `vcmp` and `vexp`. -/
structure VxOut where
  m : Mem
  firstNan : Option Nat
  nans : Nat
  infs : Bool
  fl : Fl
  count : Nat
  deriving DecidableEq, Repr

/-- Records an element written at walk index e in format f. -/
def VxOut.note (o : VxOut) (f e : Nat) (w : Word) (fl : Fl) : VxOut :=
  if f > 1 then { o with fl := o.fl.or fl }
  else if isNanFmt f w then { o with firstNan := o.firstNan <|> some e, nans := o.nans + 1, fl := o.fl.or fl }
  else if isInfFmt f w then { o with infs := true, fl := o.fl.or fl }
  else { o with fl := o.fl.or fl }

/-- Binary16 mode: every descriptor named is binary16 (R168). -/
def allB16 (l : List View) : Bool := l.all (fun v => dFmt v.d == 0)

/-- An input as the mode reads it (R168, R172); int32 as its exact value. -/
def vxIn (f16 : Bool) (f : Nat) (w : Word) : Val × Fl :=
  if f = 2 then (.fin (bit w 31) (signed 32 w.toNat).natAbs 0, {})
  else if f16 then (dec16 w, {})
  else
    let x := widen (f == 1) w
    (dec32 x.1, x.2)

/-- R172: rounding into dD's format: in binary32 mode to binary32, then to binary16, where `exp` becomes infinity only by that second step. (log 146: DEDUCED.) -/
def vxRound (f16 : Bool) (df : Nat) (u : Option Nat) (r : Res) : Word × Fl :=
  if f16 then r.to16 u
  else
    let x := r.to32
    if df = 1 then x
    else
      let y := (dec32 x.1).toRes.1.to16 u
      (y.1, x.2.or y.2)

/-- R176: conversion to int32. -/
def toInt32 (v : Val) : Word × Fl :=
  match v with
  | .nan _ => (0, { inv := true })
  | .inf n => (if n then 0x80000000#32 else 0x7FFFFFFF#32, { inv := true })
  | .fin n m e =>
    let k := roundAt m e false 0
    if n then (if k > 2 ^ 31 then (0x80000000#32, { inv := true }) else (BitVec.ofInt 32 (-(k : Int)), {}))
    else if k > 2 ^ 31 - 1 then (0x7FFFFFFF#32, { inv := true }) else (w32 k, {})

/-- R177, R178: dropout of one element. -/
def dropRes (f16 : Bool) (a p : Val) (pfl : Fl) (u : Nat) : Res × Fl :=
  let q : Nat := match p with
    | .nan _ => 0
    | .inf n => if n then 0 else 2 ^ 24
    | .fin n m e => if n then 0 else min (truncAt m e (-24)) (2 ^ 24)
  let f0 : Fl := pfl.or { inv := p.isNan }
  let r := if u < q then divV f16 a p else mulV a (.fin false 0 0)
  (r.1, f0.or r.2)

/-- R178: the 24 random bits of element e. -/
def dropBits (seed : BitVec 64) (step : Word) (layer : BitVec 16) (key : Word) (e : Nat) : Nat :=
  (philox (fld seed 31 0) (fld seed 63 32) step.toNat (layer.toNat * 65536 + 0x3000) key.toNat (e / 4 % 2 ^ 32)).getD (e % 4) 0 % 2 ^ 24

/-- One element of `vop`: the raw result and the flags. -/
def vopElem (fn : Nat) (f16 : Bool) (df : Nat) (a : Nat × Word) (b c : Option (Nat × Word)) (sr : Option Nat) (dr : Nat) : Word × Fl :=
  let x := vxIn f16 a.1 a.2
  let y := match b with | some w => vxIn f16 w.1 w.2 | none => (.fin false 0 0, {})
  let z := match c with | some w => vxIn f16 w.1 w.2 | none => (.fin false 0 0, {})
  let fin : Fl := x.2.or (y.2.or z.2)
  if df = 2 then
    (if a.1 = 2 then (a.2, {}) else
      let r := toInt32 (vxIn (a.1 == 0) a.1 a.2).1
      (r.1, fin.or r.2))
  else
    let r := if fn = 0x16 then dropRes f16 x.1 y.1 {} dr else vopRes fn f16 x.1 y.1 z.1
    let o := vxRound f16 df sr r.1
    (o.1, fin.or (r.2.or o.2))

/-- R168, R169: `vop`, one tile; `e0` is the walk index of its first position. -/
def vopTile (fn : Nat) (f16 : Bool) (d a : View) (b c : Option View) (u dr : Nat → Nat) (sr : Bool) (e0 : Nat) (ps : List Pos) (o : VxOut) : VxOut :=
  let df := dFmt d.d
  let rs := (ps.zip (List.range ps.length)).filter (fun x => x.1.real) |>.map (fun x =>
    let e := e0 + x.2
    let g : Option View → Option (Nat × Word) := fun v => v.map (fun w => (dFmt w.d, vGet o.m w x.1))
    (x.1, e, vopElem fn f16 df (dFmt a.d, vGet o.m a x.1) (g b) (g c) (if sr then some (u e) else none) (if fn = 0x16 then dr e else 0)))
  rs.foldl (fun o r => { o.note df r.2.1 r.2.2.1 r.2.2.2 with m := vPut o.m d r.1 r.2.2.1 }) o

/-- Tiles in order, with the walk index of each tile's first position. -/
def overTiles (f : Nat → List Pos → VxOut → VxOut) : List (List Pos) → Nat → VxOut → VxOut
  | [], _, o => o
  | t :: ts, e, o => overTiles f ts (e + t.length) (f e t o)

def VxOut.start (m : Mem) : VxOut := { m := m, firstNan := none, nans := 0, infs := false, fl := {}, count := 0 }

def runVop (fn : Nat) (m : Mem) (d a : View) (b c : Option View) (sr : Bool) (u dr : Nat → Nat) : VxOut :=
  let f16 := allB16 ([d, a] ++ b.toList ++ c.toList)
  overTiles (vopTile fn f16 d a b c u dr sr) (walkTiles d.d) 0 (VxOut.start m)

/-- R181: the sum of a row, its words widened, PAD beyond the extent; `tc` columns a tile. -/
def sumGo (tc : Nat) : Nat → List Word → Word → Word × Fl
  | 0, _, r => (r, {})
  | k + 1, l, r =>
    let t := tree32 (l.take tc ++ List.replicate (32 - tc) negZero32)
    let s := add32 r t.1
    let z := sumGo tc k (l.drop tc) s.1
    (z.1, t.2.or (s.2.or z.2))

/-- R182: the winner of a row: value and index; `mx` for a maximum. -/
def pickGo (mx : Bool) : List Val → Nat → Val → Nat → Val × Nat
  | [], _, v, i => (v, i)
  | x :: xs, k, v, i =>
    if (if mx then ltV v x else ltV x v) then pickGo mx xs (k + 1) x k else pickGo mx xs (k + 1) v i

/-- R180 to R182: `vred`, one row (i1 … given): the raw results for D and dI and the flags. A padded position takes part, and what reading its PAD
sets it sets; R171 speaks of positions whose results are discarded. (log 78: DEDUCED.) -/
def vredRow (fn : Nat) (f16 : Bool) (m : Mem) (d a : View) (sr : Option Nat) (i : List Int) : Word × Nat × Fl :=
  let n := ceilDiv (dExt a.d 0) (dTC a.d) * dTC a.d
  let raw := (List.range n).map (fun (k : Nat) => vGet m a { i := (k : Int) :: i, real := decide (k < dExt a.d 0) })
  if fn = 0 then
    let ws := raw.map (widen (dFmt a.d == 1))
    let s := sumGo (dTC a.d) (ceilDiv (dExt a.d 0) (dTC a.d)) (ws.map (·.1)) negZero32
    let r := (dec32 s.1).toRes.1
    let o := if dFmt d.d = 1 then r.to32 else r.to16 sr
    (o.1, 0, (ws.foldl (fun f x => f.or x.2) s.2).or o.2)
  else
    let vs := raw.map (vxIn f16 (dFmt a.d))
    let w := pickGo (fn == 1 || fn == 3) (vs.map (·.1)).tail 1 ((vs.map (·.1)).headD (.nan false)) 0
    let sg := (vs.map (·.1)).any Val.isSig
    let o := vxRound f16 (dFmt d.d) sr w.1.toRes.1
    (o.1, w.2, (vs.foldl (fun (f : Fl) x => f.or x.2) ({ inv := sg } : Fl)).or o.2)

/-- `vred` visits the rows in the walk of dD (whose EXT0 is 1), tile by tile (R169); row by row it writes the result, then the index. (log 147: DESIGN
CHOICE.) -/
def runVred (fn : Nat) (m : Mem) (d a : View) (i : Option View) (sr : Bool) (u : Nat → Nat) : VxOut :=
  let f16 := allB16 ([d, a] ++ i.toList)
  let df := dFmt d.d
  overTiles (fun e0 ps o =>
    let rs := (ps.zip (List.range ps.length)).filter (fun x => x.1.real) |>.map (fun x =>
      let e := e0 + x.2
      (x.1, e, vredRow fn f16 o.m d a (if sr then some (u e) else none) x.1.i.tail))
    rs.foldl (fun o r =>
      let m1 := vPut o.m d r.1 r.2.2.1
      let m2 := match i with | some iv => vPut m1 iv r.1 (w32 r.2.2.2.1) | none => m1
      { o.note df r.2.1 r.2.2.1 r.2.2.2.2 with m := m2 }) o) (walkTiles d.d) 0 (VxOut.start m)

/-- R106: a mask element selects. A binary32 subnormal counts as a zero (deviation 2 of R159). (log 78: DEDUCED.) -/
def maskOn (m : Mem) (v : View) (p : Pos) : Bool :=
  let w := vGet m v p
  (decFmt (dFmt v.d) (if dFmt v.d = 0 then w else (ftz w).1)).nonzero

/-- R106: `vcmp`: tile by tile of A, elements taken go to the next real positions of D. -/
def runVcmp (m : Mem) (d a k : View) : VxOut :=
  let dp := walkReal d.d
  overTiles (fun _ ps o =>
    let xs := (ps.filter (fun p => p.real && maskOn o.m k p)).map (vGet o.m a)
    let mm := ((dp.drop o.count).zip xs).foldl (fun mm x => vPut mm d x.1 x.2) o.m
    { o with m := mm, count := o.count + xs.length }) (walkTiles a.d) 0 (VxOut.start m)

/-- R106: `vexp`: tile by tile of D; `count` is the mask elements that selected so far. -/
def runVexp (m : Mem) (d a k : View) : VxOut :=
  let ap := walkReal a.d
  overTiles (fun _ ps o =>
    let rs := (ps.filter (·.real)).map (fun p => (p, maskOn o.m k p))
    let step := rs.foldl (fun (acc : List (Pos × Word) × Nat) r =>
      if r.2 then
        let x := match ap[acc.2]? with | some q => vGet o.m a q | none => dPad a.d
        (acc.1 ++ [(r.1, x)], acc.2 + 1)
      else (acc.1 ++ [(r.1, dPad d.d)], acc.2)) ([], o.count)
    { o with m := step.1.foldl (fun mm x => vPut mm d x.1 x.2) o.m, count := step.2 }) (walkTiles d.d) 0 (VxOut.start m)

/-- R185, R186: cycles of a tile, the pass that a retry repeats (log 111: DEDUCED), and of a vector instruction: rate r, walk of a descriptor, full
rate or not. -/
def vxPass (d : Desc) (r : Nat) (full : Bool) : Nat := ceilDiv (dTR d * dTC d) r * (if full then 1 else 4)
def vxCycles (d : Desc) (r : Nat) (full : Bool) : Nat := (walkTiles d).length * vxPass d r full

/-- R185: the rate of a `vop` function. -/
def vopRate (fn : Nat) (f16 : Bool) : Nat :=
  let b := if fn = 0x0D ∨ fn = 0x0E ∨ fn = 0x12 ∨ fn = 0x16 then 8
    else if (0x0A ≤ fn ∧ fn ≤ 0x0C) ∨ fn = 0x0F ∨ fn = 0x10 ∨ fn = 0x11 ∨ fn = 0x13 then 16 else 64
  if f16 then 2 * b else b

end Sys2Proof.Machine
end

