-- ==== Sys2Proof/Machine/Issue.lean ====
section
/-! DEFINITION. The issue of a Wofer instruction by a run (R59 to R72, R89, R164): the checks every instruction shares, the guard, the
loops, and what becomes of the program counter. -/
namespace Sys2Proof.Machine

/-- Where an instruction issues: the state, the core and its number, the context, the run and its name. -/
structure Site where
  s : State
  c : Nat
  k : Core
  x : CtxState
  r : Run
  id : RunId

/-- What becomes of the program counter (R72). -/
inductive Flow
  | seq
  | jump (t : BitVec 9)
  /-- The instruction has set it. -/
  | set

/-- What an instruction does where its guard holds. -/
inductive Act
  /-- It waits (R67); the stall counter by its offset, if the wait has one. -/
  | wait (ctr : Option Nat)
  /-- It waits behind outstanding accesses to data SRAM, in issue order (R95). -/
  | sram (as : List Access)
  /-- It waits on the full queue of a roller channel (R210): tier and access number of the oldest request. -/
  | full (tier ch seq : Nat)
  | trap (cause info : Nat)
  /-- It takes effect: the core and the run after it, and what it does outside the core. -/
  | go (k : Core) (r : Run) (f : Flow) (post : State → State)
  /-- It ends the setup run. -/
  | gone (k : Core)

/-- R95: the first outstanding access that overlaps some ranges. (log 74: DEDUCED.) -/
def accBlock (k : Core) (rs : List (Nat × Nat)) : Option Access := k.accs.find? (fun a => rangesMeet a.ranges rs)

/-- All of them, in issue order. -/
def accBlocks (k : Core) (rs : List (Nat × Nat)) : List Access := k.accs.filter (fun a => rangesMeet a.ranges rs)

/-! Trap causes (R88). -/
def ILLEGAL : Nat := 0x01
def ALIGN : Nat := 0x02
def SRAM_RANGE : Nat := 0x03
def PC_RANGE : Nat := 0x04
def STATE : Nat := 0x05
def PORT : Nat := 0x06
def LOOP_DEPTH : Nat := 0x07
def MERGE_DUP : Nat := 0x08
def SYNC_NAME : Nat := 0x09
def SYNC_FAULT : Nat := 0x0A
def BANK_SEQ : Nat := 0x0B
def DESC_RANGE : Nat := 0x0C
def DESC_FORMAT : Nat := 0x0D
def NAN : Nat := 0x0E
def SW : Nat := 0x0F
def BKPT : Nat := 0x10

/-- R57: the value of scalar register n. -/
def rdS (x : CtxState) (r : Run) (n : BitVec 5) : Word :=
  if n.toNat < 24 then tget r.s n.toNat 0 else tget x.shared n.toNat 0

/-- R57: predicate n; p0 is 1. -/
def rdP (r : Run) (n : BitVec 3) : Bool := n == 0 || r.p.getLsbD n.toNat

/-- R57, R70: a write to predicate n; p0 discards it. -/
def wrP (r : Run) (n : BitVec 3) (b : Bool) : Run := if n = 0 then r else { r with p := setBit r.p n.toNat b }

/-- R57: the core and the run after a write of scalar register n; a firing's write of s24 to s31 traps before this. -/
def wrS (i : Site) (n : BitVec 5) (v : Word) : Core × Run :=
  if n.toNat < 24 then (i.k, { i.r with s := tset i.r.s n.toNat v })
  else (i.k.setCtx i.k.active { i.x with shared := tset i.x.shared n.toNat v }, i.r)

/-- R57, R68: a firing may not write s24 to s31. -/
def badRd (i : Site) (n : BitVec 5) : Bool := !(RunId.isSetup i.id) && decide (n.toNat ≥ 24)

/-- R72: `end_of_word`: the loops left and the next word. -/
def endWord (at_ : Nat) : List Loop → List Loop × Nat
  | [] => ([], at_ + 1)
  | l :: r =>
    if at_ = l.last.toNat then
      (if l.left - 1 > 0 then ({ l with left := l.left - 1 } :: r, l.start.toNat) else endWord at_ r)
    else (l :: r, at_ + 1)

/-- R72: a taken branch to t leaves the loops whose body it leaves. -/
def leaveLoops (t : Nat) : List Loop → List Loop
  | [] => []
  | l :: r => if l.start.toNat ≤ t ∧ t ≤ l.last.toNat then l :: r else leaveLoops t r

/-- The run after the word at `at_` has ended. The second part says that execution would pass word 511 (R71); the program counter
then stays (DEDUCED, log 16). -/
def pastWord (r : Run) (at_ : Nat) : Run × Bool :=
  let e := endWord at_ r.loops
  if e.2 > 511 then ({ r with loops := e.1 }, true) else ({ r with loops := e.1, pc := BitVec.ofNat 9 e.2 }, false)

/-- The run of the active context that can issue: its context holds no trap, it waits for nothing, the core serves. -/
def canIssue (k : Core) (id : RunId) : Option Run :=
  match runOf k id with
  | some r => if r.ctx = k.active ∧ (tfind k.traps r.ctx).isNone ∧ r.phase = .issuing ∧ k.dead = false then some r else none
  | none => none

/-- R66: a count of an earlier `vcmp` or `vexp` of the run has still to reach one of these registers. -/
def awaitsCount (k : Core) (uid : Nat) (uses : List (BitVec 5)) : Bool :=
  k.vq.any (fun q => q.o.uid == uid && (match q.op with
    | .vcmp _ _ _ rd => uses.contains rd
    | .vexp _ _ _ rd => uses.contains rd
    | _ => false))

/-- CORE_ISSUED (R395) counts one instruction. (log 75: DEDUCED.) -/
def Core.issued (k : Core) : Core := k.count 0x094 1

/-- The run put back, one instruction counted, what the instruction does outside the core, and then the trap of R71 where execution passes
word 511. -/
def settle (s : State) (c : Nat) (id : RunId) (k : Core) (r : Run) (post : State → State) (past : Bool) : State :=
  let s1 := post (setCore s c ((k.setRun id r).issued))
  if past then takeTrap s1 c id r PC_RANGE 0 else s1

/-- What the act of an instruction makes of the state. -/
def doAct (i : Site) : Act → State
  | .wait none => i.s
  | .wait (some o) => setCore i.s i.c (i.k.count o 1)
  | .sram as => chargeWait i.s i.c as
  | .full tier ch seq => chargeTier i.s i.c tier ch seq
  | .trap cause info => takeTrap (setCore i.s i.c i.k.issued) i.c i.id i.r cause info
  | .go k r .seq post =>
    let e := pastWord r i.r.pc.toNat
    settle i.s i.c i.id k e.1 post e.2
  | .go k r (.jump t) post => settle i.s i.c i.id k { r with loops := leaveLoops t.toNat r.loops, pc := t } post false
  | .go k r .set post => settle i.s i.c i.id k r post false
  | .gone k => setCore i.s i.c ((k.dropRun i.id).issued)

/-- R60: the guard. -/
def guardOn (g : Guard) (r : Run) : Bool := rdP r g.gp != g.gn

/-- R30, R71: the word of the program at a run's program counter. -/
def fetchWord (k : Core) (r : Run) : BitVec 64 := tget k.prog (512 * r.ctx + r.pc.toNat) 0

/-- The run that may issue: none in a stopped island (R376). -/
def mayIssue (s : State) (c : Nat) (id : RunId) : Option Run := if pmActive s then canIssue (getCore s c) id else none

/-- The issue of one instruction: a pending NaN trap first (R164), the checks of R61 and the reserved guard before the guard (R60),
then the effect. The instruction is the command's (log 81); a word at the program counter that spells none is R61's ILLEGAL. `bad` is the part of R61 that the instruction's format decides, `uses` the scalar registers it names. -/
def issue (c : CoreIx) (id : RunId) (g : Guard) (bad : Bool) (uses : List (BitVec 5)) (eff : Site → Act) (s : State) : Out :=
  let k := getCore s c.val
  match mayIssue s c.val id with
  | none => .next s
  | some r =>
    let i : Site := { s := s, c := c.val, k := k, x := ctxOf k k.active, r := r, id := id }
    match r.nan with
    | some e => .next (doAct { i with k := k.setRun id { r with nan := none } } (.trap NAN e.toNat))
    | none =>
      if wordUndefined (fetchWord k r) || bad || (g.gn && g.gp == 0) then .next (doAct i (.trap ILLEGAL 0))
      else if !(guardOn g r) then .next (doAct i (.go k r .seq (fun t => t)))
      else if awaitsCount k r.uid uses then .next s
      else .next (doAct i (eff i))

end Sys2Proof.Machine
end

