-- ==== Sys2Proof/Machine/Scalar.lean ====
section
/-! DEFINITION. The scalar classes 0x00 and 0x04 (R69, R70). -/
namespace Sys2Proof.Machine

/-- The effect of an instruction that writes a scalar register: STATE where a firing may not (R68). -/
def putS (i : Site) (rd : BitVec 5) (v : Word) : Act :=
  if badRd i rd then .trap STATE 0
  else
    let w := wrS i rd v
    .go w.1 w.2 .seq (fun t => t)

/-- The effect of an instruction that writes a predicate (R70). -/
def putP (i : Site) (pd : BitVec 3) (v : Bool) : Act := .go i.k (wrP i.r pd v) .seq (fun t => t)

/-! ### What the operations compute (R69) -/
/-- rd takes rs1 + rs2. -/
def aluAdd (a b : Word) : Word := a + b
/-- rd takes rs1 - rs2. -/
def aluSub (a b : Word) : Word := a - b
/-- AND. -/
def aluAnd (a b : Word) : Word := a &&& b
/-- OR. -/
def aluOr (a b : Word) : Word := a ||| b
/-- XOR. -/
def aluXor (a b : Word) : Word := a ^^^ b
/-- left shift by the low 5 bits of rs2. -/
def aluShl (a b : Word) : Word := a <<< (b.toNat % 32)
/-- logical right shift. -/
def aluShr (a b : Word) : Word := a >>> (b.toNat % 32)
/-- arithmetic right shift. -/
def aluSra (a b : Word) : Word := a.sshiftRight (b.toNat % 32)
/-- low 32 bits of the product. -/
def aluMul (a b : Word) : Word := a * b
/-- high 32 bits of the signed product. -/
def aluMulh (a b : Word) : Word := BitVec.ofInt 32 ((a.toInt * b.toInt) / 2 ^ 32)
/-- high 32 bits of the unsigned product. -/
def aluMulhu (a b : Word) : Word := w32 (a.toNat * b.toNat / 2 ^ 32)
/-- signed minimum. -/
def aluMin (a b : Word) : Word := if b.toInt < a.toInt then b else a
/-- signed maximum. -/
def aluMax (a b : Word) : Word := if a.toInt < b.toInt then b else a
/-- unsigned minimum. -/
def aluMinu (a b : Word) : Word := if b.toNat < a.toNat then b else a
/-- unsigned maximum. -/
def aluMaxu (a b : Word) : Word := if a.toNat < b.toNat then b else a
def cmpEq (a b : Word) : Bool := a == b
def cmpNe (a b : Word) : Bool := a != b
def cmpLt (a b : Word) : Bool := decide (a.toInt < b.toInt)
def cmpLtu (a b : Word) : Bool := decide (a.toNat < b.toNat)
def cmpGe (a b : Word) : Bool := decide (b.toInt ≤ a.toInt)
def cmpGeu (a b : Word) : Bool := decide (b.toNat ≤ a.toNat)
/-- R35: a is younger than b. -/
def younger (a b : Tag) : Bool := let d := (a - b).toNat; 0 < d && d < 32768
def tagYng (a b : Word) : Bool := younger (a.setWidth 16) (b.setWidth 16)

/-! ### The formats -/
/-- A format A operation that writes rd; pd is unused. -/
def aluA (op : Word → Word → Word) (c : CoreIx) (r : RunId) (f : FmtA) (s : State) : Out :=
  issue c r f.g (f.rsv != 0 || f.pd != 0) [f.rd, f.rs1, f.rs2] (fun i => putS i f.rd (op (rdS i.x i.r f.rs1) (rdS i.x i.r f.rs2))) s

/-- A format A comparison; rd is unused. -/
def cmpA (op : Word → Word → Bool) (c : CoreIx) (r : RunId) (f : FmtA) (s : State) : Out :=
  issue c r f.g (f.rsv != 0 || f.rd != 0) [f.rs1, f.rs2] (fun i => putP i f.pd (op (rdS i.x i.r f.rs1) (rdS i.x i.r f.rs2))) s

/-- A format A operation on predicates, in bits [2:0] of the rs1 and rs2 fields; `one` has no second operand. -/
def predA (one : Bool) (op : Bool → Bool → Bool) (c : CoreIx) (r : RunId) (f : FmtA) (s : State) : Out :=
  issue c r f.g (f.rsv != 0 || f.rd != 0 || f.rs1.toNat ≥ 8 || f.rs2.toNat ≥ 8 || (one && f.rs2 != 0)) []
    (fun i => putP i f.pd (op (rdP i.r (f.rs1.setWidth 3)) (rdP i.r (f.rs2.setWidth 3)))) s

/-- A format B operation that writes rd; pd is unused. -/
def aluB (op : Word → Word → Word) (c : CoreIx) (r : RunId) (f : FmtB) (s : State) : Out :=
  issue c r f.g (f.rsv != 0 || f.pd != 0) [f.rd, f.rs1] (fun i => putS i f.rd (op (rdS i.x i.r f.rs1) f.imm)) s

/-- A format B comparison; rd is unused. -/
def cmpB (op : Word → Word → Bool) (c : CoreIx) (r : RunId) (f : FmtB) (s : State) : Out :=
  issue c r f.g (f.rsv != 0 || f.rd != 0) [f.rs1] (fun i => putP i f.pd (op (rdS i.x i.r f.rs1) f.imm)) s

/-! ### The commands -/
/-- ADD (R69). -/
def execAdd (c : CoreIx) (r : RunId) (f : FmtA) (s : State) : Out := aluA aluAdd c r f s
/-- SUB (R69). -/
def execSub (c : CoreIx) (r : RunId) (f : FmtA) (s : State) : Out := aluA aluSub c r f s
/-- AND (R69). -/
def execAnd (c : CoreIx) (r : RunId) (f : FmtA) (s : State) : Out := aluA aluAnd c r f s
/-- OR (R69). -/
def execOr (c : CoreIx) (r : RunId) (f : FmtA) (s : State) : Out := aluA aluOr c r f s
/-- XOR (R69). -/
def execXor (c : CoreIx) (r : RunId) (f : FmtA) (s : State) : Out := aluA aluXor c r f s
/-- SHL (R69). -/
def execShl (c : CoreIx) (r : RunId) (f : FmtA) (s : State) : Out := aluA aluShl c r f s
/-- SHR (R69). -/
def execShr (c : CoreIx) (r : RunId) (f : FmtA) (s : State) : Out := aluA aluShr c r f s
/-- SRA (R69). -/
def execSra (c : CoreIx) (r : RunId) (f : FmtA) (s : State) : Out := aluA aluSra c r f s
/-- MUL (R69). -/
def execMul (c : CoreIx) (r : RunId) (f : FmtA) (s : State) : Out := aluA aluMul c r f s
/-- MULH (R69). -/
def execMulh (c : CoreIx) (r : RunId) (f : FmtA) (s : State) : Out := aluA aluMulh c r f s
/-- MULHU (R69). -/
def execMulhu (c : CoreIx) (r : RunId) (f : FmtA) (s : State) : Out := aluA aluMulhu c r f s
/-- MIN (R69). -/
def execMin (c : CoreIx) (r : RunId) (f : FmtA) (s : State) : Out := aluA aluMin c r f s
/-- MAX (R69). -/
def execMax (c : CoreIx) (r : RunId) (f : FmtA) (s : State) : Out := aluA aluMax c r f s
/-- MINU (R69). -/
def execMinu (c : CoreIx) (r : RunId) (f : FmtA) (s : State) : Out := aluA aluMinu c r f s
/-- MAXU (R69). -/
def execMaxu (c : CoreIx) (r : RunId) (f : FmtA) (s : State) : Out := aluA aluMaxu c r f s
/-- SEL (R69): rd takes rs1 if p[pd], else rs2. -/
def execSel (c : CoreIx) (r : RunId) (f : FmtA) (s : State) : Out :=
  issue c r f.g (f.rsv != 0) [f.rd, f.rs1, f.rs2]
    (fun i => putS i f.rd (if rdP i.r f.pd then rdS i.x i.r f.rs1 else rdS i.x i.r f.rs2)) s
/-- CMP_EQ (R69). -/
def execCmpEq (c : CoreIx) (r : RunId) (f : FmtA) (s : State) : Out := cmpA cmpEq c r f s
/-- CMP_NE (R69). -/
def execCmpNe (c : CoreIx) (r : RunId) (f : FmtA) (s : State) : Out := cmpA cmpNe c r f s
/-- CMP_LT (R69). -/
def execCmpLt (c : CoreIx) (r : RunId) (f : FmtA) (s : State) : Out := cmpA cmpLt c r f s
/-- CMP_LTU (R69). -/
def execCmpLtu (c : CoreIx) (r : RunId) (f : FmtA) (s : State) : Out := cmpA cmpLtu c r f s
/-- CMP_GE (R69). -/
def execCmpGe (c : CoreIx) (r : RunId) (f : FmtA) (s : State) : Out := cmpA cmpGe c r f s
/-- CMP_GEU (R69). -/
def execCmpGeu (c : CoreIx) (r : RunId) (f : FmtA) (s : State) : Out := cmpA cmpGeu c r f s
/-- TAG_YNG (R69). -/
def execTagYng (c : CoreIx) (r : RunId) (f : FmtA) (s : State) : Out := cmpA tagYng c r f s
/-- PAND (R69). -/
def execPand (c : CoreIx) (r : RunId) (f : FmtA) (s : State) : Out := predA false (fun a b => a && b) c r f s
/-- POR (R69). -/
def execPor (c : CoreIx) (r : RunId) (f : FmtA) (s : State) : Out := predA false (fun a b => a || b) c r f s
/-- PXOR (R69). -/
def execPxor (c : CoreIx) (r : RunId) (f : FmtA) (s : State) : Out := predA false (fun a b => a != b) c r f s
/-- PNOT (R69). -/
def execPnot (c : CoreIx) (r : RunId) (f : FmtA) (s : State) : Out := predA true (fun a _ => !a) c r f s

/-- R70: special register n; `cyc` is the cycle count's low word, which register 7 reads. RESIDENT is 0 where no firing is resident, in a setup run.
(log 140: DESIGN CHOICE.) -/
def special (i : Site) (cyc : Word) (n : Nat) : Word :=
  match n with
  | 0 => w32 i.x.rank
  | 1 => w32 i.x.ncores
  | 2 => w32 i.c
  | 3 => w32 (placeCore i.c)
  | 4 => w32 i.k.active
  | 5 => w32 i.x.window
  | 6 => w32 (ctxPart i.x)
  | 7 => cyc
  | _ => w32 i.k.firings.length

/-- MFS (R70): numbers 9 to 31 are ILLEGAL; CYCLES is the free-running count of the cluster island (log 5). -/
def execMfs (c : CoreIx) (r : RunId) (f : FmtA) (s : State) : Out :=
  issue c r f.g (f.rsv != 0 || f.pd != 0 || f.rs2 != 0 || f.rs1.toNat ≥ 9) [f.rd]
    (fun i =>
      let cy := clCycles i.s (i.c / 32)
      match putS i f.rd (special i (cy.1.setWidth 32) f.rs1.toNat) with
      | .go k t fl _ => .go k t fl (fun u => if f.rs1 = 7 then (clCycles u (i.c / 32)).2 else u)
      | a => a) s
/-- ADDI (R69). -/
def execAddi (c : CoreIx) (r : RunId) (f : FmtB) (s : State) : Out := aluB aluAdd c r f s
/-- ANDI (R69). -/
def execAndi (c : CoreIx) (r : RunId) (f : FmtB) (s : State) : Out := aluB aluAnd c r f s
/-- ORI (R69). -/
def execOri (c : CoreIx) (r : RunId) (f : FmtB) (s : State) : Out := aluB aluOr c r f s
/-- XORI (R69). -/
def execXori (c : CoreIx) (r : RunId) (f : FmtB) (s : State) : Out := aluB aluXor c r f s
/-- SHLI (R69). -/
def execShli (c : CoreIx) (r : RunId) (f : FmtB) (s : State) : Out := aluB aluShl c r f s
/-- SHRI (R69). -/
def execShri (c : CoreIx) (r : RunId) (f : FmtB) (s : State) : Out := aluB aluShr c r f s
/-- SRAI (R69). -/
def execSrai (c : CoreIx) (r : RunId) (f : FmtB) (s : State) : Out := aluB aluSra c r f s
/-- MULI (R69). -/
def execMuli (c : CoreIx) (r : RunId) (f : FmtB) (s : State) : Out := aluB aluMul c r f s
/-- CMPI_EQ (R69). -/
def execCmpiEq (c : CoreIx) (r : RunId) (f : FmtB) (s : State) : Out := cmpB cmpEq c r f s
/-- CMPI_NE (R69). -/
def execCmpiNe (c : CoreIx) (r : RunId) (f : FmtB) (s : State) : Out := cmpB cmpNe c r f s
/-- CMPI_LT (R69). -/
def execCmpiLt (c : CoreIx) (r : RunId) (f : FmtB) (s : State) : Out := cmpB cmpLt c r f s
/-- CMPI_LTU (R69). -/
def execCmpiLtu (c : CoreIx) (r : RunId) (f : FmtB) (s : State) : Out := cmpB cmpLtu c r f s
/-- CMPI_GE (R69). -/
def execCmpiGe (c : CoreIx) (r : RunId) (f : FmtB) (s : State) : Out := cmpB cmpGe c r f s
/-- CMPI_GEU (R69). -/
def execCmpiGeu (c : CoreIx) (r : RunId) (f : FmtB) (s : State) : Out := cmpB cmpGeu c r f s
/-- LI (R69): the rs1 field must be 0. -/
def execLi (c : CoreIx) (r : RunId) (f : FmtB) (s : State) : Out :=
  issue c r f.g (f.rsv != 0 || f.pd != 0 || f.rs1 != 0) [f.rd] (fun i => putS i f.rd f.imm) s

end Sys2Proof.Machine
end

