-- ==== Sys2Proof/Machine/Control.lean ====
section
/-! DEFINITION. Branches and loops (R71, R72), local loads and stores (R73), nop, traps and marks (R87, R88). -/
namespace Sys2Proof.Machine

/-- A target of 0 or 1 raises PC_RANGE (R71). -/
def goTo (k : Core) (r : Run) (t : BitVec 9) : Act :=
  if t.toNat < 2 then .trap PC_RANGE 0 else .go k r (.jump t) (fun u => u)

/-- BR (R71). -/
def execBr (c : CoreIx) (r : RunId) (f : FmtC) (s : State) : Out :=
  issue c r f.g (f.rsv != 0 || f.r1 != 0 || f.imm != 0) [] (fun i => goTo i.k i.r f.target) s

/-- JAL (R71): rd takes pc + 1. -/
def execJal (c : CoreIx) (r : RunId) (f : FmtC) (s : State) : Out :=
  issue c r f.g (f.rsv != 0 || f.imm != 0) [f.r1] (fun i =>
    if f.target.toNat < 2 then .trap PC_RANGE 0
    else if badRd i f.r1 then .trap STATE 0
    else
      let w := wrS i f.r1 (w32 (i.r.pc.toNat + 1))
      goTo w.1 w.2 f.target) s

/-- JR (R71): rs1[31:9] must be 0. -/
def execJr (c : CoreIx) (r : RunId) (f : FmtC) (s : State) : Out :=
  issue c r f.g (f.rsv != 0 || f.imm != 0 || f.target != 0) [f.r1] (fun i =>
    let v := rdS i.x i.r f.r1
    if v.toNat ≥ 512 then .trap PC_RANGE 0 else goTo i.k i.r (v.setWidth 9)) s

/-- R72: `loop`. -/
def loopAct (i : Site) (count : Nat) (last : BitVec 9) : Act :=
  if last.toNat ≤ i.r.pc.toNat then .trap ILLEGAL 0
  else if count = 0 then
    let e := pastWord i.r last.toNat
    if e.2 then .trap PC_RANGE 0 else .go i.k e.1 .set (fun u => u)
  else if i.r.loops.length ≥ 2 then .trap LOOP_DEPTH 0
  else .go i.k { i.r with loops := { start := i.r.pc + 1, last := last, left := count } :: i.r.loops, pc := i.r.pc + 1 } .set (fun u => u)

/-- LOOP_I (R72). -/
def execLoopI (c : CoreIx) (r : RunId) (f : FmtC) (s : State) : Out :=
  issue c r f.g (f.rsv != 0 || f.r1 != 0) [] (fun i => loopAct i f.imm.toNat f.target) s

/-- LOOP_R (R72). -/
def execLoopR (c : CoreIx) (r : RunId) (f : FmtC) (s : State) : Out :=
  issue c r f.g (f.rsv != 0 || f.imm != 0) [f.r1] (fun i => loopAct i (rdS i.x i.r f.r1).toNat f.target) s

/-- BRK (R72): to the word after the innermost loop's end; past word 511 it raises PC_RANGE (DEDUCED, log 16). -/
def execBrk (c : CoreIx) (r : RunId) (f : FmtC) (s : State) : Out :=
  issue c r f.g (f.rsv != 0 || f.r1 != 0 || f.imm != 0 || f.target != 0) [] (fun i =>
    match i.r.loops with
    | [] => .trap ILLEGAL 0
    | l :: ls => if l.last.toNat = 511 then .trap PC_RANGE 0 else .go i.k { i.r with loops := ls, pc := l.last + 1 } .set (fun u => u)) s

/-! ### Local loads and stores (R73) -/
/-- R73: the effective address, modulo 2^32. (log 80: DEDUCED.) -/
def localAddr (i : Site) (f : FmtD) : Nat := (rdS i.x i.r f.rs1 + f.imm.signExtend 32).toNat

/-- The checks of R73 and the wait of R95, then the access at its address. -/
def localAct (i : Site) (f : FmtD) (w : Nat) (eff : Nat → Act) : Act :=
  let a := localAddr i f
  if a % w ≠ 0 then .trap ALIGN 0
  else if a + w > 0x40000 then .trap SRAM_RANGE 0
  else match accBlock i.k [(a, w)] with
    | some _ => .sram (accBlocks i.k [(a, w)])
    | none => eff a

/-- A load of w bytes, then its extension. -/
def loadD (w : Nat) (ext : Nat → Word) (c : CoreIx) (r : RunId) (f : FmtD) (s : State) : Out :=
  issue c r f.g (f.rsv != 0) [f.rd, f.rs1] (fun i =>
    if badRd i f.rd then .trap STATE 0 else localAct i f w (fun a => putS i f.rd (ext (mreadNat i.k.sram a w)))) s

/-- A store of the low w bytes of rsd; it is posted and takes effect in issue order (R68). -/
def storeD (w : Nat) (c : CoreIx) (r : RunId) (f : FmtD) (s : State) : Out :=
  issue c r f.g (f.rsv != 0) [f.rd, f.rs1] (fun i =>
    localAct i f w (fun a =>
      .go { i.k with sram := mwrites i.k.sram a (leBytes w (rdS i.x i.r f.rd).toNat) } i.r .seq (fun u => u))) s

/-- LD_L_W (R73). -/
def execLdLW (c : CoreIx) (r : RunId) (f : FmtD) (s : State) : Out := loadD 4 w32 c r f s
/-- LD_L_H (R73): zero-extended. -/
def execLdLH (c : CoreIx) (r : RunId) (f : FmtD) (s : State) : Out := loadD 2 w32 c r f s
/-- LD_L_HS (R73): sign-extended. -/
def execLdLHs (c : CoreIx) (r : RunId) (f : FmtD) (s : State) : Out := loadD 2 (fun v => BitVec.ofInt 32 (signed 16 v)) c r f s
/-- LD_L_B (R73): zero-extended. -/
def execLdLB (c : CoreIx) (r : RunId) (f : FmtD) (s : State) : Out := loadD 1 w32 c r f s
/-- LD_L_BS (R73): sign-extended. -/
def execLdLBs (c : CoreIx) (r : RunId) (f : FmtD) (s : State) : Out := loadD 1 (fun v => BitVec.ofInt 32 (signed 8 v)) c r f s
/-- ST_L_W (R73). -/
def execStLW (c : CoreIx) (r : RunId) (f : FmtD) (s : State) : Out := storeD 4 c r f s
/-- ST_L_H (R73). -/
def execStLH (c : CoreIx) (r : RunId) (f : FmtD) (s : State) : Out := storeD 2 c r f s
/-- ST_L_B (R73). -/
def execStLB (c : CoreIx) (r : RunId) (f : FmtD) (s : State) : Out := storeD 1 c r f s

/-! ### Trap, debug and nop (R87, R88) -/
/-- NOP (R87). -/
def execNop (c : CoreIx) (r : RunId) (f : FmtJ) (s : State) : Out :=
  issue c r f.g (f.rsv != 0 || f.imm != 0) [] (fun i => .go i.k i.r .seq (fun u => u)) s
/-- TRAP (R88): SW with INFO = imm16. -/
def execTrap (c : CoreIx) (r : RunId) (f : FmtJ) (s : State) : Out :=
  issue c r f.g (f.rsv != 0) [] (fun _ => .trap SW f.imm.toNat) s
/-- BKPT (R88). -/
def execBkpt (c : CoreIx) (r : RunId) (f : FmtJ) (s : State) : Out :=
  issue c r f.g (f.rsv != 0 || f.imm != 0) [] (fun _ => .trap BKPT 0) s
/-- MARK (R401): a trace marker with imm16, tg and the program counter. -/
def execMark (c : CoreIx) (r : RunId) (f : FmtJ) (s : State) : Out :=
  issue c r f.g (f.rsv != 0) [] (fun i =>
    .go i.k i.r .seq (fun u => emitTrace u (ctxPart i.x) (i.c / 32)
      { TraceRec.blank with evt := 1, ctx := i.r.ctx, slot := RunId.num i.id, place := placeCore i.c, tag := i.r.tg, pc := i.r.pc.toNat, info := f.imm.toNat })) s

end Sys2Proof.Machine
end

