-- ==== Sys2Proof/Machine/Token.lean ====
section
/-! DEFINITION. Tokens, steering in a core, sync operations at issue, context and section instructions (R74 to R86). -/
namespace Sys2Proof.Machine

/-! ### Ports -/
/-- R58: the declaration byte of in port n (`out` false) or out port n of a context. -/
def decl (k : Core) (ctx : Nat) (out : Bool) (n : Nat) : Nat :=
  fld (tget k.prog (512 * ctx + b2n out) (0 : BitVec 64)) (8 * n + 7) (8 * n)
/-- TYPE: 0 unused, 1 scalar, 2 tile, 3 control. -/
def declType (k : Core) (ctx : Nat) (out : Bool) (n : Nat) : Nat := decl k ctx out n % 4
/-- FMT of a tile port: binary32. -/
def declF32 (k : Core) (ctx : Nat) (out : Bool) (n : Nat) : Bool := decl k ctx out n / 4 % 2 == 1
/-- R372: the shape bound to out port n: rows and columns. -/
def outShape (s : State) (x : CtxState) (n : Nat) : Nat × Nat :=
  let w := stnWord s x (0x80 + 4 * n)
  (fld w 12 8 + 1, fld w 17 13 + 1)

/-- The room of an out port: one token at a time (log 12). (log 12: DEDUCED.) -/
def outFree (k : Core) (n : Nat) : Bool := (tfind k.outs n).isNone

def putOut (k : Core) (n uid : Nat) (t : Token) : Core := { k with outs := tset k.outs n { uid := uid, tok := t } }

/-! ### Taking tokens (R77, R81) -/
def storeOf (k : Core) (n : Nat) : List Entry := tget k.stores n []

/-- The store entry of a port with a tag, in a context. -/
def findEntry (k : Core) (n : Nat) (ctx : Nat) (t : Tag) : Option Entry :=
  (storeOf k n).find? (fun e => decide (e.ctx = ctx) && decide (e.tag = t))

/-- The port holds a token for the run: held, or in its store. (log 79: DEDUCED.) -/
def hasTok (k : Core) (r : Run) (n : Nat) : Bool := (tfind r.held n).isSome || (findEntry k n r.ctx r.tg).isSome

/-- A landing slot's state replaced. -/
def setSlot (k : Core) (ctx n slot : Nat) (v : Slot) : Core :=
  let x := ctxOf k ctx
  match tfind x.rings n with
  | some g => k.setCtx ctx { x with rings := tset x.rings n { g with slots := g.slots.set slot v } }
  | none => k

/-- R77: the payload of a port for the run: the one it holds, or the one in the store, which it takes and holds. -/
def takeTok (k : Core) (r : Run) (n : Nat) : Option (Core × Run × Held) :=
  match tfind r.held n with
  | some v => some (k, r, v)
  | none =>
    match findEntry k n r.ctx r.tg with
    | none => none
    | some e =>
      let k1 := { k with stores := tset k.stores n ((storeOf k n).erase e) }
      let k2 := match e.held with
        | .tile sl _ _ _ => setSlot k1 r.ctx n sl (.owned r.uid)
        | .word _ => k1
      some (k2, { r with held := tset r.held n e.held }, e.held)

/-- The value `recv` writes: the word, or the landing slot's address. -/
def Held.reg : Held → Word
  | .word w => w
  | .tile _ a _ _ => w32 a

/-- The payload a token forwards (R80): a tile is read from its landing slot. -/
def Held.payload (k : Core) (f32 : Bool) : Held → Payload
  | .word w => .word w
  | .tile _ a rows cols => .tile f32 rows cols (frameRead k.sram f32 a rows cols)

/-! ### The token class (R74) -/
/-- R75: the port for which `match` raises PORT; of several the lowest. (log 142: DESIGN CHOICE.) -/
def matchFault (k : Core) (ctx : Nat) (x : CtxState) (mask : BitVec 8) : Option Nat :=
  (List.range 8).find? (fun n =>
    let t := declType k ctx false n
    (mask.getLsbD n && (t == 0 || t == 3)) || (t == 2 && (tfind x.rings n).isNone))

/-- MATCH (R75): declares the matched ports and the entry, and ends the setup run. -/
def execMatch (c : CoreIx) (r : RunId) (f : FmtE) (s : State) : Out :=
  issue c r f.g (f.rsv != 0 || f.rd != 0 || f.rs1 != 0 || f.rs2 != 0 || f.t || f.port != 0) [] (fun i =>
    if !(RunId.isSetup i.id) then .trap STATE 0
    else match matchFault i.k i.k.active i.x f.mask with
      | some n => .trap PORT n
      | none =>
        if f.entry.toNat < 2 then .trap PC_RANGE 0
        else .gone (i.k.setCtx i.k.active { i.x with mtch := some (f.mask, f.entry) })) s

/-- RECV (R77). -/
def execRecv (c : CoreIx) (r : RunId) (f : FmtE) (s : State) : Out :=
  issue c r f.g (f.rsv != 0 || f.rs1 != 0 || f.rs2 != 0 || f.t || f.mask != 0 || f.entry != 0) [f.rd] (fun i =>
    if RunId.isSetup i.id || badRd i f.rd then .trap STATE 0
    else if declType i.k i.r.ctx false f.port.toNat = 0 then .trap PORT f.port.toNat
    else match takeTok i.k i.r f.port.toNat with
      | none => .wait none
      | some (k, t, v) => .go k { t with s := tset t.s f.rd.toNat v.reg } .seq (fun u => u)) s

/-- R38: the tag of a send: tg, or the low 16 bits of rs2 where T = 1. -/
def sendTag (i : Site) (t : Bool) (rs2 : BitVec 5) : Tag := if t then (rdS i.x i.r rs2).setWidth 16 else i.r.tg

/-- SEND (R78). -/
def execSend (c : CoreIx) (r : RunId) (f : FmtE) (s : State) : Out :=
  issue c r f.g (f.rsv != 0 || f.rd != 0 || (!f.t && f.rs2 != 0) || f.mask != 0 || f.entry != 0) [f.rs1, f.rs2] (fun i =>
    let ty := declType i.k i.r.ctx true f.port.toNat
    if RunId.isSetup i.id && !f.t then .trap STATE 0
    else if ty = 0 ∨ ty = 2 then .trap PORT (f.port.toNat + 8)
    else if !(outFree i.k f.port.toNat) then .wait (some 0x034)
    else .go (putOut i.k f.port.toNat i.r.uid { tag := sendTag i f.t f.rs2, ctx := i.r.ctx, body := .word (rdS i.x i.r f.rs1) }) i.r .seq (fun u => u)) s

/-- The byte ranges of R rows by C columns of a frame. -/
def frameRanges (f32 : Bool) (base rows cols : Nat) : List (Nat × Nat) :=
  (List.range rows).map (fun r => (frameRow f32 base r, cols * (if f32 then 4 else 2)))

/-- SEND_T (R78): the tile is read from its frame at issue; behind an earlier access that overlaps it waits there (R68, R95). (log 144: DEDUCED.) -/
def execSendT (c : CoreIx) (r : RunId) (f : FmtE) (s : State) : Out :=
  issue c r f.g (f.rsv != 0 || f.rd != 0 || (!f.t && f.rs2 != 0) || f.mask != 0 || f.entry != 0) [f.rs1, f.rs2] (fun i =>
    let n := f.port.toNat
    let a := (rdS i.x i.r f.rs1).toNat
    let f32 := declF32 i.k i.r.ctx true n
    let sh := outShape i.s i.x n
    if RunId.isSetup i.id && !f.t then .trap STATE 0
    else if declType i.k i.r.ctx true n ≠ 2 then .trap PORT (n + 8)
    else if a % 128 ≠ 0 then .trap ALIGN 0
    else if a + (if f32 then 4096 else 2048) > 0x40000 then .trap SRAM_RANGE 0
    else if !(outFree i.k n) then .wait (some 0x034)
    else if i.k.accs.length ≥ 32 then .wait none
    else match accBlock i.k (frameRanges f32 a sh.1 sh.2) with
    | some _ => .sram (accBlocks i.k (frameRanges f32 a sh.1 sh.2))
    | none => .go (putOut i.k n i.r.uid { tag := sendTag i f.t f.rs2, ctx := i.r.ctx, body := .tile f32 sh.1 sh.2 (frameRead i.k.sram f32 a sh.1 sh.2) }) i.r .seq (fun u => u)) s

/-- FIN (R79): ends the setup run, or requests the firing's retirement; the loop stack is emptied (R72). -/
def execFin (c : CoreIx) (r : RunId) (f : FmtE) (s : State) : Out :=
  issue c r f.g (f.rsv != 0 || f.rd != 0 || f.rs1 != 0 || f.rs2 != 0 || f.t || f.port != 0 || f.mask != 0 || f.entry != 0) [] (fun i =>
    if RunId.isSetup i.id then .gone i.k else .go i.k { i.r with phase := .fin, loops := [] } .set (fun u => u)) s

/-- PORT_LAND (R76): declares the landing ring of a tile in port, every slot free; a second one takes the place of the first. (log 141: DESIGN CHOICE.) -/
def execPortLand (c : CoreIx) (r : RunId) (f : FmtE) (s : State) : Out :=
  issue c r f.g (f.rsv != 0 || f.rd != 0 || f.t || f.mask != 0 || f.entry != 0) [f.rs1, f.rs2] (fun i =>
    let n := f.port.toNat
    let base := (rdS i.x i.r f.rs1).toNat
    let cnt := (rdS i.x i.r f.rs2).toNat
    let f32 := declF32 i.k i.k.active false n
    let sz := if f32 then 4096 else 2048
    if !(RunId.isSetup i.id) then .trap STATE 0
    else if declType i.k i.k.active false n ≠ 2 ∨ cnt = 0 ∨ cnt > 64 then .trap PORT n
    else if base % sz ≠ 0 then .trap ALIGN 0
    else if base + cnt * sz > 0x40000 then .trap SRAM_RANGE 0
    else .go (i.k.setCtx i.k.active { i.x with rings := tset i.x.rings n { base := base, f32 := f32, slots := List.replicate cnt .free } }) i.r .seq (fun u => u)) s

/-! ### Steer and merge (R80, R81) -/
/-- R80: the first port of a steer or merge that raises PORT: data in ports, control in port, out ports. -/
def steerFault (k : Core) (ctx : Nat) (ins : List Nat) (ctl : Option Nat) (outs : List Nat) : Option Nat :=
  let t := declType k ctx false (ins.headD 0)
  let f := declF32 k ctx false (ins.headD 0)
  match ins.find? (fun n => declType k ctx false n != t || declF32 k ctx false n != f || !(t == 1 || t == 2)) with
  | some n => some n
  | none =>
    match ctl with
    | some n => if declType k ctx false n ≠ 3 then some n else outFault t f
    | none => outFault t f
where
  outFault (t : Nat) (f : Bool) : Option Nat :=
    (outs.find? (fun n => declType k ctx true n != t || (t == 2 && declF32 k ctx true n != f))).map (· + 8)

/-- A token taken from in port n goes to out port o with tag tg. -/
def forward (k : Core) (r : Run) (n o : Nat) : Act :=
  match takeTok k r n with
  | none => .wait none
  | some (k1, r1, v) =>
    if outFree k1 o then
      .go (putOut k1 o r1.uid { tag := r1.tg, ctx := r1.ctx, body := v.payload k1 (declF32 k1 r1.ctx false n) }) r1 .seq (fun u => u)
    else .wait (some 0x034)

/-- STEER (R80). -/
def execSteer (c : CoreIx) (r : RunId) (f : FmtF) (s : State) : Out :=
  issue c r f.g (f.hi != 0 || f.rsv != 0 || f.ps != 0) [] (fun i =>
    if RunId.isSetup i.id then .trap STATE 0
    else match steerFault i.k i.r.ctx [f.pd.toNat] (some f.pc.toNat) [f.pa.toNat, f.pb.toNat] with
      | some n => .trap PORT n
      | none =>
        match takeTok i.k i.r f.pc.toNat with
        | none => .wait none
        | some (k, t, v) => forward k t f.pd.toNat (if v.reg ≠ 0 then f.pa.toNat else f.pb.toNat)) s

/-- STEER_P (R80). -/
def execSteerP (c : CoreIx) (r : RunId) (f : FmtF) (s : State) : Out :=
  issue c r f.g (f.hi != 0 || f.rsv != 0 || f.pc != 0) [] (fun i =>
    if RunId.isSetup i.id then .trap STATE 0
    else match steerFault i.k i.r.ctx [f.pd.toNat] none [f.pa.toNat, f.pb.toNat] with
      | some n => .trap PORT n
      | none => forward i.k i.r f.pd.toNat (if rdP i.r f.ps then f.pa.toNat else f.pb.toNat)) s

/-- MERGE (R80). -/
def execMerge (c : CoreIx) (r : RunId) (f : FmtF) (s : State) : Out :=
  issue c r f.g (f.hi != 0 || f.rsv != 0 || f.ps != 0) [] (fun i =>
    if RunId.isSetup i.id then .trap STATE 0
    else match steerFault i.k i.r.ctx [f.pb.toNat, f.pd.toNat] (some f.pc.toNat) [f.pa.toNat] with
      | some n => .trap PORT n
      | none =>
        match takeTok i.k i.r f.pc.toNat with
        | none => .wait none
        | some (k, t, v) => forward k t (if v.reg ≠ 0 then f.pb.toNat else f.pd.toNat) f.pa.toNat) s

/-- MERGE_ANY (R80, R81): both inputs holding tg raise MERGE_DUP. -/
def execMergeAny (c : CoreIx) (r : RunId) (f : FmtF) (s : State) : Out :=
  issue c r f.g (f.hi != 0 || f.rsv != 0 || f.ps != 0 || f.pc != 0) [] (fun i =>
    if RunId.isSetup i.id then .trap STATE 0
    else match steerFault i.k i.r.ctx [f.pb.toNat, f.pd.toNat] none [f.pa.toNat] with
      | some n => .trap PORT n
      | none =>
        if hasTok i.k i.r f.pb.toNat && hasTok i.k i.r f.pd.toNat then .trap MERGE_DUP 0
        else forward i.k i.r (if hasTok i.k i.r f.pb.toNat then f.pb.toNat else f.pd.toNat) f.pa.toNat) s

/-! ### Sync operations at issue (R82, R83, R257, R258) -/
/-- R82: the object that a name means, none for a malformed name. -/
def objOf (w : Word) : Option ObjRef :=
  if fld w 30 16 ≠ 0 then none
  else if bit w 31 then
    (if h : fld w 15 8 < 16 then (if g : fld w 7 0 < 64 then some (.port ⟨fld w 15 8, h⟩ ⟨fld w 7 0, g⟩) else none) else none)
  else if h : fld w 15 8 < 160 then (if g : fld w 7 0 < 128 then some (.hive ⟨fld w 15 8, h⟩ ⟨fld w 7 0, g⟩) else none) else none

/-- The router in front of an object. -/
def objNode : ObjRef → Node
  | .hive cl _ => .cluster cl.val
  | .port lp _ => .lp lp.val

/-- A request on its way: to the hive of the core's own cluster directly (R256), else as a mesh packet. -/
def sendSync (s : State) (src : Node) (q : SyncReq) : State :=
  match q.near, q.obj with
  | true, .hive cl _ =>
    let k := getCl s cl.val
    setCl s cl.val { k with hive := { k.hive with arrived := k.hive.arrived ++ [q] } }
  | _, o => { s with mesh := s.mesh ++ [{ pid := q.pid, src := src, dst := objNode o, tid := q.tid, body := .sync q }] }

/-- The issue of a sync operation: the name first, then the request; all but `syn.st` hold the run until the answer. -/
def syncAct (i : Site) (op : SyncOp) (rd : BitVec 5) (pd : BitVec 3) (name arg : Word) (cond : BitVec 3) (timeout : BitVec 20) : Act :=
  match objOf name with
  | none => .trap SYNC_NAME 0
  | some o =>
    if op = .bar ∧ (fld arg 15 0 = 0 ∨ fld arg 31 16 ≠ 0) then .trap ILLEGAL 0
    else
      let near := match o with | .hive cl _ => decide (cl.val = i.c / 32) | .port _ _ => false
      let q : SyncReq := { src := .core i.c i.r.uid, pid := ctxPart i.x, op := op, obj := o, arg := arg, cond := cond, tid := i.k.nextSeq, seq := i.k.nextSeq, near := near }
      let k := { i.k with nextSeq := i.k.nextSeq + 1 }
      if op = .st then .go k i.r .seq (fun u => sendSync u (.core i.c) q)
      else .go k { i.r with phase := .sync { op := op, rd := rd, pd := pd, obj := o, timed := timeout != 0, tid := i.k.nextSeq } } .set
        (fun u => sendSync u (.core i.c) q)

/-- SYN_FAA (R82). -/
def execSynFaa (c : CoreIx) (r : RunId) (f : FmtG) (s : State) : Out :=
  issue c r f.g (f.rsv != 0 || f.pd != 0 || f.cond != 0 || f.timeout != 0) [f.rd, f.rs1, f.rs2] (fun i =>
    if badRd i f.rd then .trap STATE 0 else syncAct i .faa f.rd 0 (rdS i.x i.r f.rs1) (rdS i.x i.r f.rs2) 0 0) s
/-- SYN_LD (R82). -/
def execSynLd (c : CoreIx) (r : RunId) (f : FmtG) (s : State) : Out :=
  issue c r f.g (f.rsv != 0 || f.rs2 != 0 || f.pd != 0 || f.cond != 0 || f.timeout != 0) [f.rd, f.rs1] (fun i =>
    if badRd i f.rd then .trap STATE 0 else syncAct i .ld f.rd 0 (rdS i.x i.r f.rs1) 0 0 0) s
/-- SYN_ST (R258): posted. -/
def execSynSt (c : CoreIx) (r : RunId) (f : FmtG) (s : State) : Out :=
  issue c r f.g (f.rsv != 0 || f.rd != 0 || f.pd != 0 || f.cond != 0 || f.timeout != 0) [f.rs1, f.rs2] (fun i =>
    syncAct i .st 0 0 (rdS i.x i.r f.rs1) (rdS i.x i.r f.rs2) 0 0) s
/-- SYN_WAIT (R83): cond 0b100 to 0b111 is ILLEGAL. -/
def execSynWait (c : CoreIx) (r : RunId) (f : FmtG) (s : State) : Out :=
  issue c r f.g (f.rsv != 0 || f.rd != 0 || f.cond.toNat ≥ 4) [f.rs1, f.rs2] (fun i =>
    syncAct i .wait 0 f.pd (rdS i.x i.r f.rs1) (rdS i.x i.r f.rs2) f.cond f.timeout) s
/-- SYN_BAR (R255). -/
def execSynBar (c : CoreIx) (r : RunId) (f : FmtG) (s : State) : Out :=
  issue c r f.g (f.rsv != 0 || f.rd != 0 || f.cond != 0) [f.rs1, f.rs2] (fun i =>
    syncAct i .bar 0 f.pd (rdS i.x i.r f.rs1) (rdS i.x i.r f.rs2) 0 f.timeout) s

/-! ### Context and section (R85) -/
/-- CTX_SW (R85, R86): the firing retires as by `fin`; the switch then starts (RETIREMENT). -/
def execCtxSw (c : CoreIx) (r : RunId) (f : FmtH) (s : State) : Out :=
  issue c r f.g (f.rsv != 0 || f.mode == 3 || f.port != 0 || f.rs2 != 0 || f.t) [] (fun i =>
    if RunId.isSetup i.id then .trap STATE 0
    else .go i.k { i.r with phase := .ctxSw f.mode.toNat f.ctx.toNat, loops := [] } .set (fun u => u)) s

/-- SEC_SEND (R85, R118). (log 96: DEDUCED.) -/
def execSecSend (c : CoreIx) (r : RunId) (f : FmtH) (s : State) : Out :=
  issue c r f.g (f.rsv != 0 || f.mode == 3 || (!f.t && f.rs2 != 0)) [f.rs2] (fun i =>
    let n := f.port.toNat
    if RunId.isSetup i.id && !f.t then .trap STATE 0
    else if declType i.k i.r.ctx true n ≠ 3 then .trap PORT (n + 8)
    else if !(outFree i.k n) then .wait (some 0x034)
    else
      let seq : BitVec 16 := if f.t then (rdS i.x i.r f.rs2).setWidth 16 else 0
      .go (putOut i.k n i.r.uid { tag := sendTag i f.t f.rs2, ctx := i.r.ctx, body := .sect f.mode.toNat f.ctx.toNat seq }) i.r .seq (fun u => u)) s

end Sys2Proof.Machine
end

