-- ==== Sys2Proof/Machine/TensorIsa.lean ====
section
/-! DEFINITION. The matrix, vector, roller and descriptor classes at issue (R91 to R110): the checks of the descriptors, the bank
rules, the dispatch into the queue of the unit. -/
namespace Sys2Proof.Machine

/-! ### Operands (R92) -/
/-- The value of an override or problem register; field 0 names none. -/
def named (i : Site) (n : BitVec 5) : Nat := if n = 0 then 0 else (rdS i.x i.r n).toNat

/-- The registers that fields name. -/
def uses (l : List (BitVec 5)) : List (BitVec 5) := l.filter (fun n => n != 0)

/-- Descriptor register n of the context. -/
def descOf (x : CtxState) (n : BitVec 4) : Desc := tget x.descs n.toNat 0

/-- The view of descriptor n with its override and problem registers. -/
def viewOf (i : Site) (n : BitVec 4) (ro rp : BitVec 5) : View := mkView (descOf i.x n) (named i ro) (named i rp)

/-- A valid descriptor in SPACE 0 with COMP and PARAM 0 (R97, R104). -/
def plain (d : Desc) : Bool := !(dBad d) && dSpace d == 0 && !(dComp d) && !(dParam d)

/-- R53, R97: the traps of SPACE 0 operands after their format: DESC_RANGE, ALIGN, SRAM_RANGE. -/
def sramTrap (l : List View) : Option Nat :=
  if l.any vRange then some DESC_RANGE
  else if l.any vMisaligned then some ALIGN
  else if l.any vBeyond then some SRAM_RANGE
  else none

/-! ### Banks (R43 to R45, R68) -/
def bankOf (k : Core) (b : Nat) : Bank := tget k.banks b Bank.reset

/-- R43: a member of the sequence. -/
def bankMember (o : Order) (t : Tag) : Bool := decide ((t - o.b).toNat % o.s < o.l)

/-- R44, R68: what the bank says to an access: it proceeds, it waits (with or without the bank-order counter), or it traps. -/
inductive Gate | go | wait (ctr : Option Nat) | seq
  deriving DecidableEq, Repr

/-- R68: whether a firing may use a bank now (log 83: DEDUCED). -/
def bankGate (b : Bank) (uid : Nat) (t : Tag) : Gate :=
  match b.order with
  | some o => if t = o.e then .go else if bankMember o t && younger t o.e then .wait (some 0x038) else .seq
  | none => match b.owner with
    | some u => if u = uid then .go else .wait none
    | none => .go

/-! ### Dispatch (R95, R96) -/
def originOf (i : Site) : Origin :=
  { seq := i.k.nextSeq, uid := i.r.uid, run := i.id, ctx := i.r.ctx, pc := i.r.pc, tag := i.r.tg, layer := (tget i.x.shared 31 (0 : Word)).setWidth 16,
    part := ctxPart i.x, rank := i.x.rank, ncores := i.x.ncores }

/-- The core with the access of a dispatch in its table. -/
def Core.dispatch (k : Core) (o : Origin) (rs : List (Nat × Nat)) (tier ch : Nat) : Core :=
  { k with accs := k.accs ++ [{ seq := o.seq, uid := o.uid, ctx := o.ctx, ranges := rs, tier := tier, ch := ch }], nextSeq := k.nextSeq + 1 }

/-- A dispatch into the matrix queue, behind the bank rules. -/
def toMatrix (i : Site) (bank : Nat) (owner : Option Nat → Option Nat) (vs : List View) (op : MxOp) : Act :=
  let b := bankOf i.k bank
  match bankGate b i.r.uid i.r.tg with
  | .seq => .trap BANK_SEQ 0
  | .wait c => .wait c
  | .go =>
    if i.k.mq.length ≥ 4 ∨ i.k.accs.length ≥ 32 then .wait none
    else
      let o := originOf i
      let k := i.k.dispatch o (vs.flatMap vRanges) 0 0
      .go { k with mq := k.mq ++ [{ o := o, op := op }], banks := tset k.banks bank { b with owner := if b.order.isSome then b.owner else owner b.owner } } i.r .seq (fun u => u)

/-- A dispatch into the vector queue. -/
def toVector (i : Site) (vs : List View) (op : VxOp) : Act :=
  if i.k.vq.length ≥ 4 ∨ i.k.accs.length ≥ 32 then .wait none
  else
    let o := originOf i
    let k := i.k.dispatch o (vs.flatMap vRanges) 0 0
    .go { k with vq := k.vq ++ [{ o := o, op := op }] } i.r .seq (fun u => u)

/-! ### mma and the bank modes (R97 to R100) -/
/-- R97: the formats and shapes of `mma`. -/
def mmaBad (f32 : Bool) (a b : Desc) : Bool :=
  !(plain a) || !(plain b) || dNdim a != 2 || dNdim b != 2 || dFmt a != b2n f32 || dFmt b != b2n f32 ||
  dExt a 1 > 32 || dExt b 1 != dExt a 0 || dExt b 0 > 32

def mmaAct (f32 : Bool) (f : FmtM) (i : Site) : Act :=
  let a := viewOf i f.dA f.ra f.rp
  let b := viewOf i f.dB f.rb f.rp
  let clr := f.ca || (f.cp != 0 && rdP i.r f.cp)
  if RunId.isSetup i.id then .trap STATE 0
  else if mmaBad f32 a.d b.d then .trap DESC_FORMAT 0
  else match sramTrap [a, b] with
    | some t => .trap t 0
    | none => toMatrix i f.bank.toNat (fun o => if clr then some i.r.uid else o) [a, b] (.mma f32 f.bank.toNat clr a b)

/-- MMA_H (R98). -/
def execMmaH (c : CoreIx) (r : RunId) (f : FmtM) (s : State) : Out :=
  issue c r f.g (f.rsv != 0) (uses [f.ra, f.rb, f.rp]) (mmaAct false f) s
/-- MMA_S (R98). -/
def execMmaS (c : CoreIx) (r : RunId) (f : FmtM) (s : State) : Out :=
  issue c r f.g (f.rsv != 0) (uses [f.ra, f.rb, f.rp]) (mmaAct true f) s

/-- ACC_SEQ (R100): ordered mode. -/
def execAccSeq (c : CoreIx) (r : RunId) (f : FmtM) (s : State) : Out :=
  issue c r f.g (f.rsv != 0 || f.dA != 0 || f.dB != 0 || f.ca || f.cp != 0 || f.rp != 0) [f.ra, f.rb] (fun i =>
    let v1 := rdS i.x i.r f.ra
    let v2 := rdS i.x i.r f.rb
    let l := fld v1 31 16
    if !(RunId.isSetup i.id) then .trap STATE 0
    else if l = 0 ∨ fld v2 15 0 = 0 ∨ l > fld v2 15 0 ∨ fld v2 31 16 ≠ 0 then .trap BANK_SEQ 0
    else
      let o : Order := { b := v1.setWidth 16, l := l, s := fld v2 15 0, e := v1.setWidth 16, ctx := i.r.ctx }
      .go { i.k with banks := tset i.k.banks f.bank.toNat { bankOf i.k f.bank.toNat with order := some o } } i.r .seq (fun u => u)) s

/-- ACC_DFLT (R100): default mode. -/
def execAccDflt (c : CoreIx) (r : RunId) (f : FmtM) (s : State) : Out :=
  issue c r f.g (f.rsv != 0 || f.dA != 0 || f.dB != 0 || f.ca || f.cp != 0 || f.rp != 0 || f.ra != 0 || f.rb != 0) [] (fun i =>
    if !(RunId.isSetup i.id) then .trap STATE 0
    else .go { i.k with banks := tset i.k.banks f.bank.toNat { bankOf i.k f.bank.toNat with order := none } } i.r .seq (fun u => u)) s

/-! ### drain (R101 to R103, R150) -/
/-- R101: the destination that dD names. -/
def drainDstBad (ofmt : Nat) (d : Desc) : Bool :=
  !(plain d) || dNdim d != 2 || dExt d 0 > 32 || dExt d 1 > 32 || dFmt d != (if ofmt = 2 then 1 else 0)

/-- R150: the epilogue operand. -/
def drainEpiBad (rows cols : Nat) (d : Desc) : Bool :=
  !(plain d) || dNdim d != 2 || dFmt d > 1 || dExt d 1 != rows || dExt d 0 != cols

/-- R150: rows and columns of the region: dD's extents, or the shape bound to the out port. -/
def drainShape (s : State) (x : CtxState) (dst : Option View) (port : Nat) : Nat × Nat :=
  match dst with
  | some d => (dExt d.d 1, dExt d.d 0)
  | none => outShape s x port

/-- R150: a region sent in binary32 has at most 16 rows. -/
def drainTall (dst : Option View) (ofmt : Nat) (sh : Nat × Nat) : Bool := dst.isNone && ofmt == 2 && decide (sh.1 > 16)

/-- R101, R102: the first port of a drain that raises PORT. -/
def drainPort (k : Core) (ctx : Nat) (f : FmtN) : Option Nat :=
  let n := f.dD.toNat % 8
  if f.dst ∧ (declType k ctx true n ≠ 2 ∨ declF32 k ctx true n ≠ (f.ofmt == 2)) then some n
  else if f.epi = 3 ∧ (declType k ctx true f.side.toNat ≠ 2 ∨ declF32 k ctx true f.side.toNat = false) then some f.side.toNat
  else none

/-- DRAIN (R101). -/
def execDrain (c : CoreIx) (r : RunId) (f : FmtN) (s : State) : Out :=
  issue c r f.g
    (f.rsv != 0 || f.ofmt == 3 || f.epi.toNat ≥ 4 || (f.dst && (f.dD.toNat ≥ 8 || f.roD != 0)) ||
      (f.half && !(f.dst && f.ofmt == 2)) || (f.epi != 3 && f.side != 0) || (f.epi != 1 && f.epi != 2 && (f.dE != 0 || f.roE != 0)))
    (uses [f.rp, f.roD, f.roE]) (fun i =>
      let dst : Option View := if f.dst then none else some (viewOf i f.dD f.roD f.rp)
      let ep : Option View := if f.epi = 1 ∨ f.epi = 2 then some (viewOf i f.dE f.roE f.rp) else none
      let port := f.dD.toNat % 8
      let sh := drainShape i.s i.x dst port
      if RunId.isSetup i.id then .trap STATE 0
      else match drainPort i.k i.r.ctx f with
        | some n => .trap PORT (n + 8)
        | none =>
          if drainTall dst f.ofmt.toNat sh || dst.any (fun v => drainDstBad f.ofmt.toNat v.d) || ep.any (fun v => drainEpiBad sh.1 sh.2 v.d) then .trap DESC_FORMAT 0
          else match sramTrap (dst.toList ++ ep.toList) with
            | some t => .trap t 0
            | none =>
              let p := match dst with | some v => v.p | none => named i f.rp
              toMatrix i f.bank.toNat (fun o => if o = some i.r.uid then none else o) (dst.toList ++ ep.toList)
                (.drain f.bank.toNat dst port f.ofmt.toNat f.epi.toNat ep f.side.toNat f.half p)) s

/-! ### The vector class (R104 to R107, R168 to R183) -/
/-- The functions of `vop` that read B, and those that read C. -/
def vopUsesB (fn : Nat) : Bool := (1 ≤ fn && fn ≤ 6) || fn == 0x12 || fn == 0x14 || fn == 0x15 || fn == 0x16
def vopUsesC (fn : Nat) : Bool := fn == 4 || fn == 0x15

/-- R170: dD gives stride 0 to a dimension whose extent exceeds 1. -/
def strideZero (d : Desc) : Bool := (List.range (dNdim d)).any (fun n => dStride d n == 0 && dExt d n > 1)

/-- Equal NDIM and extents. -/
def sameShape (a b : Desc) : Bool := dNdim a == dNdim b && (List.range 5).all (fun n => dExt a n == dExt b n)

/-- R104, R168, R170, R176, R177: the formats and shapes of `vop`. -/
def vopBad (fn : Nat) (d a : Desc) (b c : Option Desc) : Bool :=
  let all := [d, a] ++ b.toList ++ c.toList
  !(all.all plain) || strideZero d || !(all.all (sameShape d)) ||
  (dFmt d == 2 && fn != 0) || (dFmt a == 2 && fn != 0) || b.any (fun x => dFmt x == 2) || c.any (fun x => dFmt x == 2 && fn != 0x15) ||
  (fn == 0x16 && b.any (fun x => (List.range (dNdim x)).any (fun n => dStride x n != 0)))

/-- VOP (R168). -/
def execVop (c : CoreIx) (r : RunId) (f : FmtV) (s : State) : Out :=
  let fn := f.fn.toNat
  issue c r f.g
    (fn ≥ 0x17 || (!(vopUsesB fn) && (f.dB != 0 || f.roB != 0)) || (!(vopUsesC fn) && f.dC != 0) || (fn != 0x16 && f.rd != 0))
    (uses [f.rp, f.roD, f.roA, f.roB, f.rd]) (fun i =>
      let d := viewOf i f.dD f.roD f.rp
      let a := viewOf i f.dA f.roA f.rp
      let b : Option View := if vopUsesB fn then some (viewOf i f.dB f.roB f.rp) else none
      let cc : Option View := if vopUsesC fn then some (viewOf i f.dC 0 f.rp) else none
      let vs := [d, a] ++ b.toList ++ cc.toList
      if RunId.isSetup i.id then .trap STATE 0
      else if vopBad fn d.d a.d (b.map (·.d)) (cc.map (·.d)) then .trap DESC_FORMAT 0
      else match sramTrap vs with
        | some t => .trap t 0
        | none => toVector i vs (.vop fn d a b cc (w32 (named i f.rd)) f.sr)) s

/-- R105, R180: the formats and shapes of `vred`; `i` is the index region of FN 3 and 4 (log 76: DEDUCED). dD has the NDIM of A. (log 147: DEDUCED.) -/
def vredBad (d a : Desc) (i : Option Desc) : Bool :=
  !(plain d) || !(plain a) || strideZero d || dFmt d == 2 || dFmt a == 2 || dNdim d != dNdim a || dExt d 0 != 1 ||
  !((List.range 5).all (fun n => n == 0 || dExt d n == dExt a n)) ||
  i.any (fun x => !(plain x) || dFmt x != 2 || !(sameShape x d))

/-- VRED (R180). A dB that FN 0 to 2 do not use is R61's field that must be 0 (log 76: DEDUCED). -/
def execVred (c : CoreIx) (r : RunId) (f : FmtV) (s : State) : Out :=
  let fn := f.fn.toNat
  issue c r f.g (fn > 4 || f.dC != 0 || f.rd != 0 || (fn < 3 && (f.dB != 0 || f.roB != 0))) (uses [f.rp, f.roD, f.roA, f.roB]) (fun i =>
    let d := viewOf i f.dD f.roD f.rp
    let a := viewOf i f.dA f.roA f.rp
    let x : Option View := if fn ≥ 3 then some (viewOf i f.dB f.roB f.rp) else none
    if RunId.isSetup i.id then .trap STATE 0
    else if vredBad d.d a.d (x.map (·.d)) then .trap DESC_FORMAT 0
    else match sramTrap ([d, a] ++ x.toList) with
      | some t => .trap t 0
      | none => toVector i ([d, a] ++ x.toList) (.vred fn d a x f.sr)) s

/-- R183: the formats and shapes of `vcmp` and `vexp`; `ref` is the descriptor whose shape the mask has. -/
def moveBad (d a m ref : Desc) : Bool :=
  !(plain d) || !(plain a) || !(plain m) || strideZero d || dFmt d != dFmt a || dFmt d == 2 || dFmt m == 2 || !(sameShape m ref)

/-- `vcmp` and `vexp` at issue. -/
def moveIssue (isCmp : Bool) (c : CoreIx) (r : RunId) (f : FmtV) (s : State) : Out :=
  issue c r f.g (f.fn != 0 || f.dC != 0 || f.sr) (f.rd :: uses [f.rp, f.roD, f.roA, f.roB]) (fun i =>
    let d := viewOf i f.dD f.roD f.rp
    let a := viewOf i f.dA f.roA f.rp
    let m := viewOf i f.dB f.roB f.rp
    if RunId.isSetup i.id || badRd i f.rd then .trap STATE 0
    else if moveBad d.d a.d m.d (if isCmp then a.d else d.d) then .trap DESC_FORMAT 0
    else match sramTrap [d, a, m] with
      | some t => .trap t 0
      | none => toVector i [d, a, m] (if isCmp then .vcmp d a m f.rd else .vexp d a m f.rd)) s

/-- VCMP (R106). -/
def execVcmp (c : CoreIx) (r : RunId) (f : FmtV) (s : State) : Out := moveIssue true c r f s
/-- VEXP (R106). -/
def execVexp (c : CoreIx) (r : RunId) (f : FmtV) (s : State) : Out := moveIssue false c r f s

/-! ### halo (R107) -/
/-- The border that DIR sends and the halo it fills, as indices of dimension 0 or 1: whether rows, first sent, first filled, width. -/
def haloBorder (d : Desc) (dir : Nat) : Bool × Int × Int × Nat :=
  let r : Int := dExt d 1
  let c : Int := dExt d 0
  if dir = 0 then (true, 0, r, dHB d)
  else if dir = 1 then (true, r - (dHT d : Int), -(dHT d : Int), dHT d)
  else if dir = 2 then (false, 0, c, dHR d)
  else (false, c - (dHL d : Int), -(dHL d : Int), dHL d)

/-- The shape of the border, its rows and columns: a row border has the width in rows, a column border in columns (log 103: DEDUCED). -/
def haloShape (d : Desc) (dir : Nat) : Nat × Nat :=
  let b := haloBorder d dir
  if b.1 then (b.2.2.2, dExt d 0) else (dExt d 1, b.2.2.2)

/-- The indices of a strip of the border's shape whose first row or column is `at_`, row-major. -/
def haloStrip (d : Desc) (dir : Nat) (at_ : Int) : List (List Int) :=
  let sh := haloShape d dir
  let rows := (haloBorder d dir).1
  (List.range sh.1).flatMap (fun (i : Nat) => (List.range sh.2).map (fun (j : Nat) =>
    if rows then [(j : Int), at_ + (i : Int), 0, 0, 0] else [at_ + (j : Int), (i : Int), 0, 0, 0]))

/-- The addresses of the halo that is filled: they must lie in data SRAM. -/
def haloBeyond (v : View) (dir : Nat) : Bool :=
  (haloStrip v.d dir (haloBorder v.d dir).2.2.1).any (fun i => vAddr v i < 0 || vAddr v i + dSize v.d > 0x40000)

def haloRanges (v : View) (dir : Nat) : List (Nat × Nat) :=
  ((haloStrip v.d dir (haloBorder v.d dir).2.2.1) ++ (haloStrip v.d dir (haloBorder v.d dir).2.1)).map (fun i => ((vAddr v i).toNat, dSize v.d))

/-- A slice that a border can be taken of: a valid float descriptor of at most two dimensions whose border fits a tile token. -/
def haloBad (d : Desc) (dir : Nat) : Bool :=
  !(plain d) || dFmt d == 2 || dNdim d > 2 || (haloShape d dir).1 > 32 || (haloShape d dir).2 > 32 ||
  (dFmt d == 1 && (haloShape d dir).1 * (haloShape d dir).2 > 512)

/-- HALO (R107): both ports must be tile ports of dS's format. -/
def execHalo (c : CoreIx) (r : RunId) (f : FmtW) (s : State) : Out :=
  issue c r f.g (f.rsv != 0) (uses [f.rp, f.roS]) (fun i =>
    let v := viewOf i f.dS f.roS f.rp
    let dir := f.dir.toNat
    let bad := fun (out : Bool) (n : Nat) => declType i.k i.r.ctx out n ≠ 2 ∨ b2n (declF32 i.k i.r.ctx out n) ≠ dFmt v.d
    if RunId.isSetup i.id then .trap STATE 0
    else if bad true f.outP.toNat then .trap PORT (f.outP.toNat + 8)
    else if bad false f.inP.toNat then .trap PORT f.inP.toNat
    else if haloBad v.d dir then .trap DESC_FORMAT 0
    else if vRange v then .trap DESC_RANGE 0
    else if vMisaligned v then .trap ALIGN 0
    else if vBeyond v || haloBeyond v dir then .trap SRAM_RANGE 0
    else if i.k.vq.length ≥ 4 ∨ i.k.accs.length ≥ 32 then .wait none
    else
      let o := originOf i
      let k := i.k.dispatch o (haloRanges v dir) 0 0
      .go { k with vq := k.vq ++ [{ o := o, op := .halo v f.outP.toNat f.inP.toNat dir false none }] } i.r .seq (fun u => u)) s

/-! ### The roller class (R108, R109, R200, R223) -/
/-- R200: a COMP descriptor covers whole tiles of a float format. -/
def compBad (d : Desc) : Bool := dComp d && (dExt d 0 != dTC d || dExt d 1 != dTR d || dFmt d > 1)

/-- R223: the fields of a PARAM descriptor. -/
def paramBad (d : Desc) : Bool :=
  dParam d && (dFmt d != 0 || dNdim d < 3 || dComp d || dTR d != 32 || dTC d != 32 || dExt d 0 != 32 || dExt d 1 != 32 ||
    dAddr d % 0x4000 != 0 || [dStride d 2, dStride d 3, dStride d 4, dPstride d].any (fun x => x % 0x4000 != 0))

/-- R108: the two descriptors of a transfer. -/
def pairBad (a b : Desc) : Bool :=
  dBad a || dBad b || dFmt a != dFmt b || dCount a != dCount b || compBad a || compBad b || paramBad a || paramBad b

/-- R108: base and strides in use; STRIDE0 and STRIDE1 of COMP and PARAM descriptors are ignored. -/
def rlMisaligned (v : View) : Bool :=
  let sz : Int := dSize v.d
  v.base % (if dSpace v.d = 0 then sz else 64) != 0 || dPstride v.d % sz != 0 ||
  (List.range (dNdim v.d)).any (fun n => decide ((if dComp v.d ∨ dParam v.d then 2 else 0) ≤ n) && dStride v.d n % sz != 0)

/-- R108: the spaces and forms of each operation. -/
def rlBad (op : RlOp) (l r : Desc) : Bool :=
  (match op with
    | .ld => dSpace l != 0 || dSpace r == 0 || dComp l
    | .st => dSpace l != 0 || dSpace r == 0 || dComp l || dParam r
    | .pf => dSpace l != 1 || !(dSpace r == 2 || dSpace r == 3) || (dComp l && !(dComp r))) || dParam l || pairBad l r

/-- A roller instruction at issue: the checks, then the channel's queue of 8. -/
def rlIssue (op : RlOp) (c : CoreIx) (r : RunId) (f : FmtL) (s : State) : Out :=
  issue c r f.g (f.rsv != 0) (uses [f.rp, f.roL, f.roR]) (fun i =>
    let l := viewOf i f.dL f.roL f.rp
    let m := viewOf i f.dR f.roR f.rp
    let ch := f.ch.toNat
    let q := tget i.k.rq ch []
    if rlBad op l.d m.d then .trap DESC_FORMAT 0
    else if vRange l || vRange m then .trap DESC_RANGE 0
    else if rlMisaligned l || rlMisaligned m then .trap ALIGN 0
    else if dSpace l.d = 0 && vBeyond l then .trap SRAM_RANGE 0
    else if q.length ≥ 8 then .full (q.head?.elim 0 (fun z => dSpace z.r.d)) ch (q.head?.elim 0 (·.o.seq))
    else if i.k.accs.length ≥ 32 then .wait none
    else
      let o := originOf i
      let k := i.k.dispatch o (if op = .pf then [] else vRanges l) (if op = .ld then dSpace m.d else 0) ch
      .go { k with rq := tset k.rq ch (q ++ [{ o := o, op := op, l := l, r := m }]) } i.r .seq (fun u => u)) s

/-- RL_LD (R108). -/
def execRlLd (c : CoreIx) (r : RunId) (f : FmtL) (s : State) : Out := rlIssue .ld c r f s
/-- RL_ST (R108). -/
def execRlSt (c : CoreIx) (r : RunId) (f : FmtL) (s : State) : Out := rlIssue .st c r f s
/-- RL_PF (R108). -/
def execRlPf (c : CoreIx) (r : RunId) (f : FmtL) (s : State) : Out := rlIssue .pf c r f s

/-! ### The descriptor class (R94, R110) -/
/-- A descriptor register replaced. -/
def putDesc (i : Site) (n : BitVec 4) (d : Desc) : Act :=
  .go (i.k.setCtx i.k.active { i.x with descs := tset i.x.descs n.toNat d }) i.r .seq (fun u => u)

/-- DSC_LD (R94). -/
def execDscLd (c : CoreIx) (r : RunId) (f : FmtQ) (s : State) : Out :=
  issue c r f.g (f.rsv != 0 || f.word != 0 || f.r2 != 0) [f.r1] (fun i =>
    let a := (rdS i.x i.r f.r1 + f.imm.signExtend 32).toNat
    let d : Desc := BitVec.ofNat 512 (mreadNat i.k.sram a 64)
    if !(RunId.isSetup i.id) then .trap STATE 0
    else if a % 64 ≠ 0 then .trap ALIGN 0
    else if a + 64 > 0x40000 then .trap SRAM_RANGE 0
    else match accBlock i.k [(a, 64)] with
      | some _ => .sram (accBlocks i.k [(a, 64)])
      | none => if dBad d then .trap DESC_FORMAT 0 else putDesc i f.dN d) s

/-- DSC_WR (R94). -/
def execDscWr (c : CoreIx) (r : RunId) (f : FmtQ) (s : State) : Out :=
  issue c r f.g (f.rsv != 0 || f.r1 != 0 || f.imm != 0) [f.r2] (fun i =>
    let d := setFld (descOf i.x f.dN) (32 * f.word.toNat + 31) (32 * f.word.toNat) (rdS i.x i.r f.r2).toNat
    if !(RunId.isSetup i.id) then .trap STATE 0
    else if dBad d then .trap DESC_FORMAT 0 else putDesc i f.dN d) s

/-- DSC_RD (R110). -/
def execDscRd (c : CoreIx) (r : RunId) (f : FmtQ) (s : State) : Out :=
  issue c r f.g (f.rsv != 0 || f.imm != 0 || f.r2 != 0) [f.r1] (fun i =>
    putS i f.r1 (w32 (fld (descOf i.x f.dN) (32 * f.word.toNat + 31) (32 * f.word.toNat)))) s

/-- DSC_TGX (R110). -/
def execDscTgx (c : CoreIx) (r : RunId) (f : FmtQ) (s : State) : Out :=
  issue c r f.g (f.rsv != 0 || f.dN != 0 || f.imm != 0 || f.r2 == 0 || f.r2.toNat > 16 || f.word.toNat + f.r2.toNat > 16) [f.r1] (fun i =>
    if RunId.isSetup i.id then .trap STATE 0
    else putS i f.r1 (w32 (i.r.tg.toNat / 2 ^ f.word.toNat % 2 ^ f.r2.toNat))) s

end Sys2Proof.Machine
end

