-- ==== Sys2Proof/Machine/CoreEvents.lean ====
section
/-! DEFINITION. What comes about in a core besides its instructions: firings and retirement (R39 to R45), arrival and landing (R76,
R123), context switches (R86), the engines' queues (R154, R169), reports and answers (R161 to R164, R184), sync answers and
timeouts (R83, R84, R260). -/
namespace Sys2Proof.Machine

/-! ### Setup runs and the end of runs -/
def freshRun (uid ctx : Nat) (tg : Tag) (pc : BitVec 9) (held : Tbl Held) : Run :=
  { uid := uid, ctx := ctx, tg := tg, pc := pc, s := [], p := 0, loops := [], held := held, phase := .issuing, nan := none }

/-- R62: the setup run of the active context, if its station is enabled and has not had one. -/
def startSetup (s : State) (c : Nat) : State :=
  let k := getCore s c
  let x := ctxOf k k.active
  match x.stn with
  | none => s
  | some _ =>
    if x.needSetup = false then s
    else
      let x1 := { x with needSetup := false, setup := some (freshRun k.nextUid k.active 0 2 []) }
      setCore s c { k.setCtx k.active x1 with nextUid := k.nextUid + 1 }

/-- The landing slots of an ended firing wait for the accesses issued before (R76). -/
def releaseSlots (k : Core) (uid : Nat) : Core :=
  { k with ctxs := k.ctxs.map (fun e => (e.1, { e.2 with rings := e.2.rings.map (fun g =>
      (g.1, { g.2 with slots := g.2.slots.map (fun v => if v = .owned uid then .draining k.nextSeq else v) })) })) }

/-- R77, R107: a queued `halo` keeps the payload that its ending firing holds for its in port. -/
def keepHeld (k : Core) (r : Run) : Core :=
  { k with vq := k.vq.map (fun q => match q.op with
      | .halo v o i d t none => if q.o.uid = r.uid then { q with op := .halo v o i d t (tfind r.held i) } else q
      | _ => q) }

/-- A firing gives up its place, its landing slots and the banks it owns in default mode (R68, R79, R86). -/
def endFiring (k : Core) (n : Nat) (r : Run) : Core :=
  let k1 := releaseSlots (keepHeld { k with firings := tdel k.firings n } r) r.uid
  { k1 with banks := k1.banks.map (fun b => (b.1, if b.2.owner = some r.uid then { b.2 with owner := none } else b.2)) }

/-! ### Context switches (R86) -/
/-- How many tokens of a context a store holds. -/
def storeCount (l : List Entry) (ctx : Nat) : Nat := (l.filter (fun e => e.ctx == ctx)).length

/-- DROP: the firings and the setup run of the old context end, its stored tokens are discarded and counted. -/
def dropContext (s : State) (c : Nat) : State :=
  let k := getCore s c
  let old := k.active
  let k1 := (k.firings.filter (fun f => f.2.ctx == old)).foldl (fun k f => endFiring k f.1 f.2) k
  let x := ctxOf k1 old
  let n := (k1.stores.map (fun q => storeCount q.2 old)).sum
  let rings := x.rings.map (fun g => (g.1, { g.2 with slots := g.2.slots.map (fun v => if v = .stored then .free else v) }))
  let k2 := { (k1.setCtx old { x with setup := none, rings := rings }) with stores := k1.stores.map (fun q => (q.1, q.2.filter (fun e => e.ctx != old))) }
  if n = 0 then setCore s c k2
  else
    let k3 := k2.setReg 0x010 (coreReg k2 0x010 + w32 n)
    raisePart (setCore s c (k3.setReg 0x004 (setBit (coreReg k3 0x004) 2 true))) (ctxPart x) 2

/-- A switch starts; while another is in progress it waits its turn (R85; log 17). -/
def startSwitch (s : State) (c mode new : Nat) (seq : BitVec 16) : State :=
  let k := getCore s c
  let w : CtxSwitch := { mode := mode, new := new, seq := seq }
  if k.switching.isSome then setCore s c { k with switchNext := k.switchNext ++ [w] }
  else
    let s1 := setCore s c { k with switching := some w }
    if mode = 2 then dropContext s1 c else s1

/-- The switch that waited longest starts. -/
def nextSwitch (s : State) (c : Nat) : State :=
  let k := getCore s c
  match k.switchNext with
  | [] => s
  | w :: ws => startSwitch (setCore s c { k with switchNext := ws }) c w.mode w.new w.seq

/-- CONTEXT_SWITCH_DONE (R86): a switch that waited then starts (R85). (log 86: DEDUCED.) -/
def execContextSwitchDone (c : CoreIx) (s : State) : Out := running s <|
  let k := getCore s c.val
  let old := k.active
  match k.switching with
  | none => .next s
  | some w =>
    if k.firings.any (fun f => f.2.ctx == old) || (ctxOf k old).setup.isSome then .next s
    else if w.mode = 1 && k.stores.any (fun q => storeCount q.2 old > 16) then
      .next (setCore s c.val { k with switching := some { w with mode := 0 } })
    else if w.mode = 0 && k.stores.any (fun q => storeCount q.2 old > 0) then .next s
    else
      let s1 := startSetup (setCore s c.val { k with active := w.new, switching := none }) c.val
      .next (nextSwitch (emitTrace s1 (ctxPart (ctxOf k old)) (c.val / 32)
        { TraceRec.blank with evt := 4, ctx := w.new, place := placeCore c.val, args := [w32 (w.mode + old * 4 + w.new * 16 + w.seq.toNat * 2 ^ 16)] }) c.val)

/-- CORE_SECTION_TOKEN (R86, R131, R135). -/
def execCoreSectionToken (c : CoreIx) (port : Fin 8) (s : State) : Out := running s <|
  let k := getCore s c.val
  match tget k.arrivals port.val [], k.switching with
  | t :: ts, none =>
    match t.body with
    | .sect mode new seq =>
      let s1 := setCore s c.val { k with arrivals := tset k.arrivals port.val ts }
      if t.ctx ≠ k.active ∨ new = k.active then .next (setCl s1 (c.val / 32) ((getCl s1 (c.val / 32)).count 0x10C 1))
      else .next (startSwitch s1 c.val mode new seq)
    | _ => .next s
  | _, _ => .next s

/-! ### Firing and retirement (R39 to R45) -/
/-- The tags of which every port of the mask holds a token of the context. -/
def eligible (k : Core) (ctx : Nat) (mask : BitVec 8) : List Tag :=
  let ports := (List.range 8).filter (fun n => mask.getLsbD n)
  match ports with
  | [] => []
  | p :: _ => ((storeOf k p).filter (fun e => e.ctx == ctx && ports.all (fun n => (findEntry k n ctx e.tag).isSome))).map (·.tag)

/-- R35: the oldest of some tags. -/
def oldest : List Tag → Option Tag
  | [] => none
  | t :: ts => match oldest ts with
    | none => some t
    | some u => if younger t u then some u else some t

/-- A new firing can start in the active context. -/
def mayFire (k : Core) : Bool :=
  let x := ctxOf k k.active
  !k.dead && x.stn.isSome && !x.needSetup && x.setup.isNone && (tfind k.traps k.active).isNone && k.firings.length < 8 &&
  (match k.switching with | some w => w.mode == 0 | none => true)

/-- The place a new firing takes: the lowest free one among the eight (log 100: DESIGN CHOICE). -/
def freePlace (k : Core) : Nat := ((List.range 8).find? (fun n => (tfind k.firings n).isNone)).getD 0

/-- FIRING_START (R40): the firing of the oldest eligible tag. -/
def execFiringStart (c : CoreIx) (s : State) : Out := running s <|
  let k := getCore s c.val
  let x := ctxOf k k.active
  if mayFire k then
    match x.mtch with
    | none => .next s
    | some (mask, entry) =>
      match oldest (eligible k k.active mask) with
      | none => .next s
      | some t =>
        let r0 := freshRun k.nextUid k.active t entry []
        let z := ((List.range 8).filter (fun n => mask.getLsbD n)).foldl (fun (a : Core × Run) n =>
          match takeTok a.1 a.2 n with | some b => (b.1, b.2.1) | none => a) ({ k with nextUid := k.nextUid + 1 }, r0)
        let n := freePlace k
        let k1 := { z.1 with firings := tset z.1.firings n z.2 }
        .next (emitTrace (setCore s c.val k1) (ctxPart x) (c.val / 32)
          { TraceRec.blank with evt := 2, ctx := k.active, slot := n, place := placeCore c.val, tag := t, pc := entry.toNat, args := [w32 k1.firings.length] })
  else .next s

/-- R41: what a firing that executed `fin` still awaits. A `vop` or `vred` of it that is still queued holds it where the copy of HALT is 1 now, since its
report would carry the wait flag. (log 139: DESIGN CHOICE.) -/
def finWaits (k : Core) (uid : Nat) : Bool :=
  k.outs.any (fun o => o.2.uid == uid) ||
  k.mq.any (fun q => q.o.uid == uid && (match q.op with | .mma .. => false | _ => true)) ||
  k.rq.any (fun q => q.2.any (fun r => r.o.uid == uid)) ||
  k.reports.any (fun r => r.uid == uid && r.wait) || k.answers.any (fun a => a.uid == uid) ||
  (k.halt && k.vq.any (fun q => q.o.uid == uid && (match q.op with | .vop .. => true | .vred .. => true | _ => false)))

/-- R43, R44: the member that follows E, by its distance from B; past the wrap of the tag space B comes next. -/
def nextMember (o : Order) : Tag :=
  let d := (o.e - o.b).toNat + 1
  let r := d % o.s
  let n := if r < o.l then d else d + (o.s - r)
  if n < 65536 then o.b + BitVec.ofNat 16 n else o.b

/-- R44, R56: every ordered bank of the context whose E is the tag advances (log 110: DEDUCED). -/
def advanceBanks (k : Core) (ctx : Nat) (t : Tag) : Core :=
  { k with banks := k.banks.map (fun b => (b.1, match b.2.order with
      | some o => if o.e = t ∧ o.ctx = ctx then { b.2 with order := some { o with e := nextMember o } } else b.2
      | none => b.2)) }

/-- RETIREMENT (R41, R79, R85): a NaN trap is raised at the pending `fin` (R164); else the firing retires. (log 88: DEDUCED.) -/
def execRetirement (c : CoreIx) (n : Fin 8) (s : State) : Out := running s <|
  let k := getCore s c.val
  match tfind k.firings n.val with
  | none => .next s
  | some r =>
    let sw : Option (Nat × Nat) := match r.phase with | .ctxSw m x => some (m, x) | _ => none
    if r.phase ≠ .fin ∧ sw = none then .next s
    else match r.nan with
      | some e =>
        if (tfind k.traps r.ctx).isSome then .next s
        else
          let r1 := { r with phase := .issuing, nan := none }
          .next (takeTrap (setCore s c.val { k with firings := tset k.firings n.val r1 }) c.val (.slot n) r1 NAN e.toNat)
      | none =>
        if finWaits k r.uid then .next s
        else
          let cyc := takeFree 32 s
          let k1 := (advanceBanks (endFiring k n.val r) r.ctx r.tg).count 0x090 1
          let s1 := emitTrace (setCore cyc.2 c.val k1) (ctxPart (ctxOf k r.ctx)) (c.val / 32)
            { TraceRec.blank with evt := 3, ctx := r.ctx, slot := n.val, place := placeCore c.val, tag := r.tg, pc := r.pc.toNat, args := [cyc.1] }
          match sw with
          | some (m, x) => .next (startSwitch s1 c.val m x 0)
          | none => .next s1

/-! ### Arrival and landing (R76, R123) -/
/-- R37: the span of some tags with a new one, from the oldest to the youngest: the length of the shortest arc of the tag ring that holds
them all, so that tags 32,768 or more apart never pass (R35). (log 85: DEDUCED.) -/
def spanWith (l : List Tag) (t : Tag) : Nat :=
  ((t :: l).map (fun a => ((t :: l).map (fun b => (b - a).toNat)).foldl Nat.max 0)).foldl Nat.min 65535

/-- R37: the tags that the active context holds. -/
def heldTags (k : Core) (ctx : Nat) : List Tag :=
  k.stores.flatMap (fun q => (q.2.filter (fun e => e.ctx == ctx)).map (·.tag)) ++ (k.firings.filter (fun f => f.2.ctx == ctx)).map (·.2.tg)

/-- The first free landing slot of a port of a context: its number and byte address. -/
def freeSlot (k : Core) (ctx n : Nat) : Option (Nat × Nat) :=
  match tfind (ctxOf k ctx).rings n with
  | none => none
  | some g => match g.slots.findIdx? (· == .free) with
    | none => none
    | some i => some (i, g.base + i * (if g.f32 then 4096 else 2048))

/-- R123: the counter of the first condition that fails. -/
def arrivalFails (k : Core) (n : Nat) (t : Token) : Option Nat :=
  let st := storeOf k n
  if (findEntry k n t.ctx t.tag).isSome then some 0x020
  else if st.length ≥ 64 then some 0x024
  else if t.ctx = k.active ∧ spanWith (heldTags k t.ctx) t.tag ≥ (ctxOf k t.ctx).window then some 0x028
  else if (match t.body with | .tile .. => (freeSlot k t.ctx n).isNone | _ => false) then some 0x02C
  else if t.ctx ≠ k.active ∧ (st.filter (fun e => e.ctx != k.active)).length ≥ 16 then some 0x030
  else none

/-- R76, R199: a tile token is unpacked into its landing slot. -/
def landTile (k : Core) (n : Nat) (t : Token) : Core × Held :=
  match t.body with
  | .word w => (k, .word w)
  | .sect .. => (k, .word 0)
  | .tile f32 rows cols bytes =>
    match freeSlot k t.ctx n with
    | none => (k, .word 0)
    | some (i, a) =>
      let k1 := setSlot { k with sram := frameWrite f32 (cols * (if f32 then 4 else 2)) rows k.sram a bytes } t.ctx n i .stored
      (k1, .tile i a rows cols)

/-- TOKEN_ARRIVAL (R123). A section token waits for CORE_SECTION_TOKEN. CORE_STL_PARK counts the waits for room, as R126 has it, and no
token that is parked (log 105: DEDUCED). -/
def execTokenArrival (c : CoreIx) (port : Fin 8) (s : State) : Out := running s <|
  let k := getCore s c.val
  let n := port.val
  match tget k.arrivals n [] with
  | [] => .next s
  | t :: ts =>
    match t.body with
    | .sect .. => .next s
    | _ =>
      match arrivalFails k n t with
      | some o => .next (setCore s c.val (k.count o 1))
      | none =>
        let z := landTile k n t
        let k1 := { z.1 with arrivals := tset z.1.arrivals n ts }
        .next (setCore s c.val { k1 with stores := tset k1.stores n (storeOf k1 n ++ [{ tag := t.tag, ctx := t.ctx, held := z.2 }]) })

/-- A queued `halo` has still to read the landing slot at an address (R76, R107). -/
def haloHolds (k : Core) (a : Nat) : Bool :=
  k.vq.any (fun q => match q.op with
    | .halo _ _ _ _ _ (some (.tile _ b _ _)) => b == a
    | _ => false)

/-- LANDING_SLOT_FREE (R76). -/
def execLandingSlotFree (c : CoreIx) (x : Fin 4) (port : Fin 8) (i : Fin 64) (s : State) : Out := running s <|
  let k := getCore s c.val
  match tfind (ctxOf k x.val).rings port.val with
  | none => .next s
  | some g =>
    let sz := if g.f32 then 4096 else 2048
    match g.slots[i.val]? with
    | some (.draining q) =>
      if k.accs.any (fun a => a.seq < q && rangesMeet a.ranges [(g.base + i.val * sz, sz)]) || haloHolds k (g.base + i.val * sz) then .next s
      else .next (setCore s c.val (setSlot k x.val port.val i.val .free))
    | _ => .next s

/-! ### Reports (R160 to R164, R184) -/
/-- CORE_FPS takes flags (R160, R162). -/
def Core.flag (k : Core) (f : Fl) (nan inf : Bool) : Core :=
  k.setReg 0x080 (coreReg k 0x080 ||| w32 (b2n f.inv + 2 * b2n f.ovf + 4 * b2n f.flush + 8 * b2n nan + 16 * b2n inf))

/-- R161: a result that holds an infinity or a NaN on the gradient path sends a step-overflow report. -/
def overflowReport (k : Core) (o : Origin) (bad : Bool) : Core :=
  if bad && bit (coreReg k 0x084) o.ctx then
    { k.setReg 0x080 (setBit (coreReg k 0x080) 5 true) with overflows := k.overflows ++ [(o.part, (ctxOf k o.ctx).step.setWidth 16)] }
  else k

/-- R163, R184: one NaN report for the first NaN element. -/
def nanSend (k : Core) (o : Origin) (vec : Bool) (first : Option Nat) : Core :=
  match first with
  | none => k
  | some e => { k with reports := k.reports ++ [{ part := o.part, uid := o.uid, slot := RunId.num o.run, ctx := o.ctx, pc := o.pc, tag := o.tag, vec := vec, elem := e, wait := k.halt }] }

/-- The access of a completed instruction leaves the table (R95). -/
def Core.accDone (k : Core) (seq : Nat) : Core := { k with accs := k.accs.filter (fun a => a.seq != seq) }

/-- The bytes of access number `seq`. -/
def accRanges (k : Core) (seq : Nat) : List (Nat × Nat) := (k.accs.filter (fun a => a.seq == seq)).flatMap (·.ranges)
/-- R95: the first earlier access of the core that overlaps those of access number `seq`. -/
def earlier (k : Core) (seq : Nat) : Option Access := k.accs.find? (fun a => a.seq < seq && rangesMeet a.ranges (accRanges k seq))
/-- All of them, in issue order. -/
def earlierAll (k : Core) (seq : Nat) : List Access := k.accs.filter (fun a => a.seq < seq && rangesMeet a.ranges (accRanges k seq))

/-- A unit waits behind the earlier accesses (R95, R126, R210). -/
def sramStall (s : State) (c seq : Nat) : State := chargeWait s c (earlierAll (getCore s c) seq)

/-! ### The matrix queue (R154) -/
/-- The random bits of a drain's element. -/
def drainBits (k : Core) (o : Origin) (bank p e : Nat) : Nat :=
  let x := ctxOf k o.ctx
  srBits x.seed x.step (srC1 o.layer 1 bank) o.tag.toNat p o.rank e

/-- The element index (R151) of the first NaN among converted elements of a region. -/
def firstNan (fmt m0 cols : Nat) (l : List Word) : Option Nat :=
  (l.findIdx? (isNanFmt fmt)).map (fun q => 32 * (m0 + q / cols) + q % cols)

/-- R167: the cycles that a drain occupies the engine: a row of its region, or a beat of its tile token, each. (log 132: DEDUCED.) -/
def drainCycles (sh : Nat × Nat) (dst : Option View) (ofmt : Nat) : Nat :=
  if dst.isSome then sh.1 else ceilDiv (sh.1 * sh.2 * (if ofmt = 2 then 4 else 2)) 128

/-- A drain takes effect: region or tile token, side token, flags, counters, reports. (log 77: DEDUCED.) -/
def drainRun (k : Core) (sh : Nat × Nat) (o : Origin) (bank : Nat) (dst : Option View) (port ofmt epi : Nat)
    (e : Option View) (side : Nat) (half : Bool) (p : Nat) : Core :=
  let m0 := if dst.isNone ∧ ofmt = 2 then 16 * b2n half else 0
  let fmt := if ofmt = 2 then 1 else 0
  let r := drainOut k.sram (bankOf k bank) m0 sh.1 sh.2 ofmt epi e (drainBits k o bank p)
  let st := if epi = 3 then rowStats sh.1 sh.2 r.vals else ([], {})
  let k1 := match dst with
    | some d => { k with sram := ((((List.range sh.1).flatMap (fun (i : Nat) => (List.range sh.2).map (fun (n : Nat) => [(n : Int), (i : Int)]))).zip r.out).foldl
        (fun m q => vPut m d { i := q.1, real := true } q.2) k.sram) }
    | none => putOut k port o.uid { tag := o.tag, ctx := o.ctx, body := .tile (fmt == 1) sh.1 sh.2 (wordsToBytes (fmt == 1) r.out) }
  let t : Token := { tag := o.tag, ctx := o.ctx, body := .tile true 2 32 (wordsToBytes true st.1) }
  let k2 := if epi ≠ 3 then k1 else if dst.isNone && side == port then { k1 with mq := { o := o, op := .side side t } :: k1.mq }
    else putOut k1 side o.uid t
  let nans := (r.out.filter (isNanFmt fmt)).length + (st.1.filter (isNanFmt 1)).length
  let infs := r.out.any (isInfFmt fmt) || st.1.any (isInfFmt 1)
  let k3 := (k2.flag (r.fl.or st.2) (nans > 0) infs).count 0x088 nans |>.count 0x098 (drainCycles sh dst ofmt)
  nanSend (overflowReport (k3.accDone o.seq) o (nans > 0 || infs)) o false (firstNan fmt m0 sh.2 r.out)

/-- R98: an `mma` runs on what is left of the queue; a retry adds the occupancy of one pass (R335). -/
def mmaRun (k : Core) (o : Origin) (f32 : Bool) (b : Nat) (clr : Bool) (va vb : View) (retry : Bool) : Core :=
  let bank := bankOf k b
  let r := mmaBank f32 clr k.sram va vb bank
  let k1 := { k with banks := tset k.banks b { bank with vals := r.1 }, retries := k.retries + b2n retry }
  ((k1.flag r.2 false false).count 0x098 (mmaCycles f32 va vb + b2n retry * mmaPass f32 va vb)).accDone o.seq

/-- The out ports that the head of the queue sends on. -/
def mxPorts : MxOp → List Nat
  | .mma .. => []
  | .drain _ dst port _ epi _ side _ _ => (if dst.isNone then [port] else []) ++ (if epi = 3 then [side] else [])
  | .side port _ => [port]

/-- R154: an instruction that nothing passes. -/
def mxWaits : MxOp → Bool
  | .mma .. => true
  | _ => false

/-- R154: the bank that a drain has still to read. -/
def mxBank : MxOp → Option Nat
  | .drain b .. => some b
  | _ => none

/-- R154: while the drain at the head has started and still runs, waiting for credit (R120) or for an earlier access to its bytes (R95), an `mma`
behind it, to another bank, starts at once. -/
def passDrain (s : State) (c : Nat) (q : MxItem) (qs : List MxItem) (retry : Bool) : State :=
  let k := getCore s c
  match qs with
  | { o := o, op := .mma f32 b clr va vb } :: r =>
    if mxBank q.op = some b || mxWaits q.op then s
    else match earlier k o.seq with
      | some _ => sramStall s c o.seq
      | none => setCore s c (mmaRun { k with mq := q :: r } o f32 b clr va vb retry)
  | _ => s

/-- MATRIX_QUEUE_START (R154, R101): the head of the matrix queue. `retry`: a residue mismatch re-executes the pass (R335). The tokens of a
drain stand at their ports when it runs, so that a send issued later may go first (log 102: DEDUCED). -/
def execMatrixQueueStart (c : CoreIx) (retry : Bool) (s : State) : Out := running s <|
  let k := getCore s c.val
  match k.mq with
  | [] => .next s
  | q :: qs =>
    match earlier k q.o.seq with
    | some _ => .next (passDrain (sramStall s c.val q.o.seq) c.val q qs retry)
    | none =>
      if (mxPorts q.op).any (fun n => !(outFree k n)) then .next (passDrain (setCore s c.val (k.count 0x034 1)) c.val q qs retry)
      else
        let k0 := { k with mq := qs }
        match q.op with
        | .mma f32 b clr va vb => .next (setCore s c.val (mmaRun k0 q.o f32 b clr va vb retry))
        | .drain b dst port ofmt epi e side half p =>
          .next (setCore s c.val (drainRun k0 (drainShape s (ctxOf k q.o.ctx) dst port) q.o b dst port ofmt epi e side half p))
        | .side port t => .next (setCore s c.val (putOut k0 port q.o.uid t))

/-! ### The vector queue (R169) -/
/-- The result of a vector instruction goes to memory, flags, counters and reports. -/
def vxFinish (k : Core) (o : Origin) (r : VxOut) (cyc : Nat) : Core :=
  let k1 := (({ k with sram := r.m }).flag r.fl (r.nans > 0) r.infs).count 0x088 r.nans
  nanSend (overflowReport ((k1.count 0x09C cyc).accDone o.seq) o (r.nans > 0 || r.infs)) o true r.firstNan

/-- A run found by its uid: its place and itself. -/
def runByUid (k : Core) (uid : Nat) : Option (Nat × Run) := k.firings.find? (fun f => f.2.uid == uid)

/-- R106: the count reaches rd of the firing, if it is still resident. -/
def putCount (k : Core) (uid : Nat) (rd : BitVec 5) (n : Nat) : Core :=
  match runByUid k uid with
  | some (i, r) => { k with firings := tset k.firings i { r with s := tset r.s rd.toNat (w32 n) } }
  | none => k

/-- Every view meets the strides of R186. -/
def allFull (l : List View) : Bool := l.all vFullVx

/-- R107: whether the rank sends, and whether it receives. -/
def haloPeers (o : Origin) (dir : Nat) : Bool × Bool :=
  let lower := decide (o.rank > 0)
  let upper := decide (o.rank + 1 < o.ncores)
  if dir = 0 ∨ dir = 2 then (lower, upper) else (upper, lower)

/-- R107, R183: a received tile, or PAD, goes into the halo as raw bits. -/
def haloFill (k : Core) (v : View) (dir : Nat) (bytes : Option (List Byte)) : Core :=
  let sz := dSize v.d
  let at_ := haloStrip v.d dir (haloBorder v.d dir).2.2.1
  let at' := at_.zip (List.range at_.length)
  { k with sram := at'.foldl (fun m q =>
      let b := match bytes with | some l => (l.drop (q.2 * sz)).take sz | none => leBytes sz (dPad v.d).toNat
      mwrites m (vAddr v q.1).toNat b) k.sram }

/-- The border that is sent, row-major. -/
def haloBytes (k : Core) (v : View) (dir : Nat) : List Byte :=
  (haloStrip v.d dir (haloBorder v.d dir).2.1).flatMap (fun i => mreads k.sram (vAddr v i).toNat (dSize v.d))

/-- R77, R107: the payload that the firing held for the in port when it retired, or the token of the instruction's tag: its tile, and the core
that has taken it. -/
def haloTake (k : Core) (o : Origin) (n : Nat) (got : Option Held) : Option (Core × Held) :=
  if got.isSome then got.map (fun h => (k, h))
  else match runByUid k o.uid with
  | some (i, r) => match takeTok k r n with
    | some (k1, r1, h) => some ({ k1 with firings := tset k1.firings i r1 }, h)
    | none => none
  | none => match findEntry k n o.ctx o.tag with
    | none => none
    | some e =>
      let k1 := { k with stores := tset k.stores n ((storeOf k n).erase e) }
      match e.held with
      | .tile sl _ _ _ => some (setSlot k1 o.ctx n sl (.draining k1.nextSeq), e.held)
      | .word _ => some (k1, e.held)

/-- `halo` at the head of the queue: first it sends, then it receives; each step waits where it cannot yet go on (log 82: DEDUCED). A border of
width 0 sends nothing and takes no token; CORE_VXBUSY gains the beats of one border, whatever the rank sends or receives (log 103: DEDUCED). -/
def haloStep (s : State) (c : Nat) (k : Core) (qs : List VxItem) (o : Origin) (v : View) (outP inP dir : Nat) (sent : Bool) (got : Option Held) : State :=
  let peers := haloPeers o dir
  let sh := haloShape v.d dir
  let f32 := dFmt v.d == 1
  let width := (haloBorder v.d dir).2.2.2
  let k0 := { k with vq := qs }
  let cyc := ceilDiv (sh.1 * sh.2 * dSize v.d) 128 * (if vFullVx v then 1 else 4)
  if !sent && peers.1 && width != 0 then
    if outFree k outP then
      setCore s c (putOut { k with vq := { o := o, op := .halo v outP inP dir true got } :: qs } outP o.uid
        { tag := o.tag, ctx := o.ctx, body := .tile f32 sh.1 sh.2 (haloBytes k v dir) })
    else setCore s c (k.count 0x034 1)
  else if !peers.2 || width == 0 then
    setCore s c (((haloFill k0 v dir none).count 0x09C cyc).accDone o.seq)
  else
    match haloTake k0 o inP got with
    | none => s
    | some (k1, h) =>
      match h with
      | .tile _ a rows cols =>
        if rows = sh.1 ∧ cols = sh.2 then
          setCore s c (((haloFill k1 v dir (some (frameRead k1.sram f32 a rows cols))).count 0x09C cyc).accDone o.seq)
        else haloTrap k1
      | .word _ => haloTrap k1
where
  /-- R107: a token of another shape raises PORT; the halo is not written. When the entry has been disabled since the issue, no trap is left to
  raise in it (R90; log 101). -/
  haloTrap (k1 : Core) : State :=
    let s1 := setCore s c (k1.accDone o.seq)
    if (ctxOf k1 o.ctx).stn.isNone then s1 else takeTrap s1 c o.run (freshRun o.uid o.ctx o.tag o.pc []) PORT inP

/-- VECTOR_QUEUE_START (R169): the head of the vector queue walks its tiles. -/
def execVectorQueueStart (c : CoreIx) (retry : Bool) (s : State) : Out := running s <|
  let k := getCore s c.val
  match k.vq with
  | [] => .next s
  | q :: qs =>
    match earlier k q.o.seq with
    | some _ => .next (sramStall s c.val q.o.seq)
    | none =>
      let o := q.o
      let x := ctxOf k o.ctx
      let k0 := { k with vq := qs, retries := k.retries + b2n retry }
      let cyc := fun (d : Desc) (r : Nat) (vs : List View) => vxCycles d r (allFull vs) + b2n retry * vxPass d r (allFull vs)
      let u := fun (p e : Nat) => srBits x.seed x.step (srC1 o.layer 2 0) o.tag.toNat p o.rank e
      match q.op with
      | .vop fn d a b cc key sr =>
        let vs := [d, a] ++ b.toList ++ cc.toList
        let r := runVop fn k.sram d a b cc sr (u d.p) (dropBits x.seed x.step o.layer key)
        .next (setCore s c.val (vxFinish k0 o r (cyc d.d (vopRate fn (allB16 vs)) vs)))
      | .vred fn d a i sr =>
        let vs := [d, a] ++ i.toList
        let r := runVred fn k.sram d a i sr (u d.p)
        .next (setCore s c.val (vxFinish k0 o r (cyc a.d (if allB16 vs then 128 else 64) vs)))
      | .vcmp d a m rd =>
        let r := runVcmp k.sram d a m
        .next (setCore s c.val (putCount (vxFinish k0 o r (cyc a.d 64 [d, a, m])) o.uid rd r.count))
      | .vexp d a m rd =>
        let r := runVexp k.sram d a m
        .next (setCore s c.val (putCount (vxFinish k0 o r (cyc d.d 64 [d, a, m])) o.uid rd r.count))
      | .halo v outP inP dir sent got => .next (haloStep s c.val k qs o v outP inP dir sent got)

/-! ### The record block (R163, R164, R166) and step-overflow reports (R238) -/
/-- NAN_REPORT (R163): the oldest report of the core reaches its partition's record. -/
def execNanReport (c : CoreIx) (s : State) : Out := running s <|
  let k := getCore s c.val
  match k.reports with
  | [] => .next s
  | r :: rs =>
    let p := getPart s r.part
    let recorded := !(bit (partReg p 0x144) 31)
    let halt := bit (partReg p 0x140) 0
    let p1 :=
      if recorded then
        ((p.setReg 0x144 (w32 (placeCore c.val + r.ctx % 4 * 2 ^ 16 + r.pc.toNat * 2 ^ 18 + r.slot % 8 * 2 ^ 27 + b2n r.vec * 2 ^ 30 + 2 ^ 31))).setReg
          0x148 (r.tag.setWidth 32)).setReg 0x14C (w32 r.elem)
      else p.setReg 0x150 (w32 (satAdd 0xFFFFFFFF (partReg p 0x150).toNat 1))
    let k1 := { k with reports := rs, answers := if r.wait then k.answers ++ [{ uid := r.uid, slot := r.slot, elem := r.elem, recorded := recorded, halt := halt }] else k.answers }
    let s1 := setPart (setCore s c.val k1) r.part p1
    .next (if recorded then raisePart s1 r.part 1 else s1)

/-- NAN_ANSWER (R164): the oldest answer reaches the core. (log 87: DEDUCED.) -/
def execNanAnswer (c : CoreIx) (s : State) : Out := running s <|
  let k := getCore s c.val
  match k.answers with
  | [] => .next s
  | a :: as =>
    let k1 := { k with answers := as }
    if a.recorded && a.halt then
      match runByUid k1 a.uid with
      | some (i, r) => .next (setCore s c.val { k1 with firings := tset k1.firings i { r with nan := some (BitVec.ofNat 16 a.elem) } })
      | none => .next (setCore s c.val k1)
    else .next (setCore s c.val k1)

/-- STEP_OVERFLOW_REPORT (R238): by its step against the open step. With no step open it is stale. -/
def execStepOverflowReport (c : CoreIx) (s : State) : Out := running s <|
  let k := getCore s c.val
  match k.overflows with
  | [] => .next s
  | (pt, n) :: rs =>
    let p := getPart s pt
    let st := partReg p 0x114
    let stale := w32 (satAdd 0xFFFF (fld (partReg p 0x11C) 15 0) 1)
    let d := (st.setWidth 16 - n).toNat
    let p1 :=
      if bit st 16 = false then p.setReg 0x11C stale
      else if d = 0 then p.setReg 0x114 (setBit st 17 true)
      else if d = 65535 then p.setReg 0x114 (setBit st 18 true)
      else if d < 32768 then (p.setReg 0x114 (setBit st 17 true)).setReg 0x11C stale
      else p.setReg 0x11C stale
    .next (setPart (setCore s c.val { k with overflows := rs }) pt p1)

/-! ### Sync answers and timeouts (R83, R84, R258, R260) -/
/-- The site of a run, whatever it is doing. -/
def siteOf (s : State) (c : Nat) (id : RunId) (r : Run) : Site :=
  let k := getCore s c
  { s := s, c := c, k := k, x := ctxOf k k.active, r := r, id := id }

/-- The run goes on after its sync instruction, with what the instruction writes. -/
def syncResume (i : Site) (w : SyncWait) (v : Option Word) : State :=
  let kr : Core × Run := match w.op, v with
    | .faa, some x => wrS i w.rd x
    | .ld, some x => wrS i w.rd x
    | _, v => (i.k, wrP i.r w.pd v.isSome)
  let e := pastWord { kr.2 with phase := .issuing } i.r.pc.toNat
  let s1 := setCore i.s i.c (kr.1.setRun i.id e.1)
  if e.2 then takeTrap s1 i.c i.id e.1 PC_RANGE 0 else s1

/-- Answers that no run awaits any more are discarded (R260). -/
def dropStale (k : Core) : Core :=
  let live := fun (u : Nat) => (runByUid k u).isSome || k.ctxs.any (fun x => x.2.setup.any (fun r => r.uid == u))
  let awaited := fun (a : SyncRsp) => a.op == .st || (k.firings.map (·.2) ++ k.ctxs.filterMap (·.2.setup)).any (fun r => r.uid == a.uid && (match r.phase with | .sync w => w.tid == a.tid | _ => false))
  { k with syncRsps := k.syncRsps.filter (fun a => live a.uid && awaited a) }

/-- The oldest answer for a run: of the operation it waits for, or the refusal of a posted store (R254, R258). -/
def answerFor (k : Core) (r : Run) : Option SyncRsp :=
  k.syncRsps.find? (fun a => a.uid == r.uid && (a.op == .st || (match r.phase with | .sync w => w.tid == a.tid | _ => false)))

/-- SYNC_RESPONSE (R84, R259). An answer that no run awaits is discarded (R260). (log 84: DEDUCED.) -/
def execSyncResponse (c : CoreIx) (id : RunId) (s : State) : Out := running s <|
  let k := getCore s c.val
  match runOf k id with
  | none => .next (setCore s c.val (dropStale k))
  | some r =>
    match answerFor k r with
    | none => .next (setCore s c.val (dropStale k))
    | some a =>
      let s1 := setCore s c.val { k with syncRsps := k.syncRsps.erase a }
      match a.ans, r.phase with
      | .val v, .sync w => .next (syncResume (siteOf s1 c.val id r) w (some v))
      | .val _, _ => .next s1
      | .refused code, _ =>
        let r1 := { r with phase := .issuing }
        .next (takeTrap (setCore s1 c.val ((getCore s1 c.val).setRun id r1)) c.val id r1 SYNC_FAULT code)

/-- SYNC_TIMEOUT (R83, R260): the wait ends with p[pd] = 0, unless the answer has arrived; a cancel goes to the object. -/
def execSyncTimeout (c : CoreIx) (id : RunId) (s : State) : Out := running s <|
  let k := getCore s c.val
  match runOf k id with
  | none => .next s
  | some r =>
    match r.phase with
    | .sync w =>
      if w.timed = false ∨ k.syncRsps.any (fun a => a.uid == r.uid && a.tid == w.tid) then .next s
      else
        let s1 := syncResume (siteOf s c.val id r) w none
        let src : Requester := .core c.val r.uid
        match w.obj with
        | .hive cl n =>
          if cl.val = c.val / 32 then
            let q := getCl s1 cl.val
            .next (setCl s1 cl.val { q with hive := { q.hive with
              waiters := q.hive.waiters.filter (fun z => !(z.q.src == src && z.q.tid == w.tid)),
              held := q.hive.held.filter (fun z => !(z.src == src && z.tid == w.tid)),
              arrived := q.hive.arrived.filter (fun z => !(z.src == src && z.tid == w.tid)) } })
          else .next { s1 with mesh := s1.mesh ++ [{ pid := ctxPart (ctxOf k r.ctx), src := .core c.val, dst := .cluster cl.val, tid := w.tid, body := .cancel (.hive cl n) src w.tid }] }
        | .port lp n => .next { s1 with mesh := s1.mesh ++ [{ pid := ctxPart (ctxOf k r.ctx), src := .core c.val, dst := .lp lp.val, tid := w.tid, body := .cancel (.port lp n) src w.tid }] }
    | _ => .next s

end Sys2Proof.Machine
end

