-- ==== Sys2Proof/Machine/Fabric.lean ====
section
/-! DEFINITION. The static fabric (R111 to R136, R409): switches, route and steering entries, steering units, section switches. -/
namespace Sys2Proof.Machine

/-! ### Names -/
def Side.num : Side → Nat | .n => 0 | .e => 1 | .s => 2 | .w => 3 | .loc => 4
def Net.num : Net → Nat | .scalar => 0 | .vector => 1 | .control => 2
/-- Slots of a net (R112). -/
def netSlots (net : Nat) : Nat := if net = 0 then 32 else if net = 1 then 8 else 16
/-- The key of an input queue. -/
def qkey (side net slot : Nat) : Nat := (side * 3 + net) * 32 + slot
def keySide (k : Nat) : Nat := k / 96
def keyNet (k : Nat) : Nat := k / 32 % 3

/-- R13, R111: the cluster on the far side of side d. -/
def neighbour (cl d : Nat) : Option Nat :=
  let x := gridX cl
  let y := gridY cl
  if d = 0 then (if y = 0 then none else some (gridAt x (y - 1)))
  else if d = 1 then (if x = 15 then none else some (gridAt (x + 1) y))
  else if d = 2 then (if y = 9 then none else some (gridAt x (y + 1)))
  else if d = 3 then (if x = 0 then none else some (gridAt (x - 1) y))
  else none

/-- The side on which a token from side d enters. -/
def opposite (d : Nat) : Nat := (d + 2) % 4

/-! ### Route entries (R113) -/
def routeOff (ctx net slot : Nat) : Nat := 0x2000 + ctx * 0x200 + net * 0x80 + slot * 4
def route (k : Cluster) (ctx net slot : Nat) : Word := clReg k (routeOff ctx net slot)
def rtValid (r : Word) : Bool := bit r 0
def rtSrc (r : Word) (side : Nat) : Bool := bit r (1 + side)
def rtDst (r : Word) (side : Nat) : Bool := bit r (6 + side)
def rtSect (r : Word) : Bool := bit r 11
def rtPid (r : Word) : Nat := fld r 30 28

/-! ### CL_SW_CTL, CL_SW_STAT (R136) -/
def swEnabled (k : Cluster) (ctx : Nat) : Bool := bit (clReg k 0x100) ctx
/-- The active context of the switch. -/
def swCtx (k : Cluster) : Nat := fld (clReg k 0x104) 1 0
def Cluster.setStat (k : Cluster) (i : Nat) : Cluster := k.setReg 0x104 (setBit (clReg k 0x104) i true)
/-- R409: n tokens discarded as misrouted. -/
def Cluster.misroute (k : Cluster) (n : Nat) : Cluster := (((k.count 0x108 n).setStat 4).setStat 6)
/-- n tokens discarded by DROP or by a disable (R116, R132). -/
def Cluster.discard (k : Cluster) (n : Nat) : Cluster := if n = 0 then k else (k.count 0x108 n).setStat 4

def queueOf (k : Cluster) (key : Nat) : List Token := tget k.queues key []
def crossOf (k : Cluster) (key : Nat) : List Token := tget k.cross key []

/-- A section token. -/
def Token.isSect (t : Token) : Bool := match t.body with | .sect .. => true | _ => false

/-- R132, R133: data tokens that a queue holds of contexts that satisfy a test, on one side and net. -/
def heldCount (k : Cluster) (side net : Nat) (p : Nat → Bool) : Nat :=
  ((k.queues.filter (fun q => keySide q.1 == side && keyNet q.1 == net)).map (fun q => (q.2.filter (fun t => !t.isSect && p t.ctx)).length)).sum

/-! ### Arrival of a token at a switch (R114, R120, R131, R133, R409) -/
/-- The bindings of a core's ports (R372): in port or out port n of the station that context ctx serves. -/
def bindIn (s : State) (c ctx n : Nat) : Word := stnWord s (ctxOf (getCore s c) ctx) (0x60 + 4 * n)
def bindOut (s : State) (c ctx n : Nat) : Word := stnWord s (ctxOf (getCore s c) ctx) (0x80 + 4 * n)
/-- A binding is to this net and slot. -/
def bindsTo (w : Word) (net slot : Nat) : Bool := bit w 0 && fld w 2 1 == net + 1 && fld w 7 3 == slot

/-- R122: a token that waits at the local side for a net and slot: lowest core first, steering units after all cores; of two ports of a core,
the first in its port table. (log 107: DESIGN CHOICE.) -/
inductive LocalSource
  | core (c port : Nat) (t : Token)
  | unit (u : Nat) (t : Token)
  deriving DecidableEq, Repr

def LocalSource.tok : LocalSource → Token | .core _ _ t => t | .unit _ t => t

/-- R127: a steering entry. -/
def steerOff (ctx u : Nat) : Nat := 0x3000 + ctx * 0x40 + u * 4
def steer (k : Cluster) (ctx u : Nat) : Word := clReg k (steerOff ctx u)
def stMode (w : Word) : Nat := fld w 2 1
def stNet (w : Word) : Nat := fld w 3 3
def stInD (w : Word) : Nat := fld w 8 4
def stInB (w : Word) : Nat := fld w 13 9
def stInC (w : Word) : Nat := fld w 17 14
def stOutA (w : Word) : Nat := fld w 22 18
def stOutB (w : Word) : Nat := fld w 27 23

def unitOf (k : Cluster) (u : Nat) : SUnit := tget k.units u SUnit.reset

/-- R136: tokens that a switch holds, in its queues and in its steering units. -/
def heldTokens (k : Cluster) : List Token :=
  k.queues.flatMap (·.2) ++ k.units.flatMap (fun u => u.2.inq.flatMap (·.2) ++ u.2.ctl ++ u.2.data.map (·.2) ++ u.2.out.map (·.2))

/-- The result of unit u that waits for a slot of a net. -/
def unitOut (k : Cluster) (net slot u : Nat) : Option Token :=
  ((unitOf k u).out.find? (fun o => o.1 == slot && stNet (steer k o.2.ctx u) == net)).map (·.2)

def localSource (s : State) (cl net slot : Nat) : Option LocalSource :=
  let cores := (List.range 32).map (fun i => cl * 32 + i)
  let cs := cores.findSome? (fun c => (getCore s c).outs.findSome? (fun o =>
    if bindsTo (bindOut s c o.2.tok.ctx o.1) net slot then some (LocalSource.core c o.1 o.2.tok) else none))
  match cs with
  | some x => some x
  | none => (List.range 16).findSome? (fun u => (unitOut (getCl s cl) net slot u).map (fun t => LocalSource.unit u t))

/-- The source gives up the token. -/
def takeLocal (s : State) (cl : Nat) : LocalSource → State
  | .core c port _ => let k := getCore s c; setCore s c { k with outs := tdel k.outs port }
  | .unit u t =>
    let k := getCl s cl
    let x := unitOf k u
    setCl s cl { k with units := tset k.units u { x with out := x.out.eraseP (fun o => o.2 == t) } }

/-- What becomes of a token that enters: none while it waits at its input (R133); else the state with the token queued or discarded. -/
def enter (s : State) (cl side net slot : Nat) (t : Token) : Option State :=
  let k := getCl s cl
  let r := route k t.ctx net slot
  let key := qkey side net slot
  if !rtValid r then some (setCl s cl (k.misroute 1))
  else if !rtSrc r side then some (raisePart (setCl s cl (k.misroute 1)) (rtPid r) 2)
  else if t.isSect && !rtSect r then some (setCl s cl (k.count 0x10C 1))
  else
    let late := !t.isSect && t.ctx != swCtx k && !(k.sw.any (fun w => w.new == t.ctx))
    if late && decide (heldCount k side net (fun c => c != swCtx k) ≥ 16) then none
    else
      let k1 := { k with queues := tset k.queues key (queueOf k key ++ [t]) }
      some (setCl s cl (if late then k1.count 0x10C 1 else k1))

/-- SWITCH_TOKEN_ARRIVAL (R409, R120, R133). -/
def execSwitchTokenArrival (cl : ClIx) (side : Side) (net : Net) (slot : Fin 32) (s : State) : Out :=
  let key := qkey (Side.num side) (Net.num net) slot.val
  let k := getCl s cl.val
  if stopped s (.cluster cl.val) then .next s
  else match side with
  | .loc =>
    match localSource s cl.val (Net.num net) slot.val with
    | none => .next s
    | some x =>
      if (queueOf k key).length ≥ 2 then .next s
      else match enter (takeLocal s cl.val x) cl.val 4 (Net.num net) slot.val x.tok with
        | some t => .next t
        | none => .next s
  | _ =>
    match crossOf k key with
    | [] => .next s
    | t :: ts =>
      match enter (setCl s cl.val { k with cross := tset k.cross key ts }) cl.val (Side.num side) (Net.num net) slot.val t with
      | some u => .next u
      | none => .next s

/-! ### Local consumers (R114, R268) -/
inductive Consumer
  | core (c port : Nat)
  | unit (u input : Nat)
  | sink (l key : Nat)
  deriving DecidableEq, Repr

/-- The link ports whose attachment cluster is `cl`. -/
def portsAt (cl : Nat) : List Nat := (List.range 16).filter (fun l => lpCluster l == cl)

/-- The inputs of a steering unit that a slot of a net feeds in a context (R127): 0 control, 1 IN_D, 2 IN_B. -/
def unitInputs (w : Word) (net slot : Nat) : List Nat :=
  if !bit w 0 then []
  else
    (if net = 2 ∧ stMode w < 2 ∧ stInC w = slot then [0] else []) ++
    (if net = stNet w ∧ stInD w = slot then [1] else []) ++
    (if net = stNet w ∧ stMode w ≠ 0 ∧ stInB w = slot then [2] else [])

/-- R114: the core in ports bound to a net and slot in a context, owned by the partition. -/
def coreConsumers (s : State) (cl ctx net slot pid : Nat) : List Consumer :=
  (List.range 32).flatMap (fun i =>
    let c := cl * 32 + i
    let x := ctxOf (getCore s c) ctx
    if x.stn.any (fun r => r.part == pid) then
      ((List.range 8).filter (fun n => bindsTo (bindIn s c ctx n) net slot)).map (fun n => Consumer.core c n)
    else [])

def unitConsumers (s : State) (cl ctx net slot : Nat) : List Consumer :=
  (List.range 16).flatMap (fun u => (unitInputs (steer (getCl s cl) ctx u) net slot).map (fun i => Consumer.unit u i))

/-- R268: the reduction sinks of enabled groups bound to a vector slot in a context. -/
def sinkConsumers (s : State) (cl ctx net slot pid : Nat) : List Consumer :=
  if net ≠ 1 then []
  else (portsAt cl).flatMap (fun l =>
    let q := getLnk s l
    (List.range 32).filterMap (fun i =>
      let g := i / 8
      let w := lnkReg q (0x2900 + g * 0x40 + i % 8 * 8)
      let st := lnkReg q (0x2814 + g * 0x20)
      if bit w 0 && fld w 2 1 == ctx && fld w 5 3 == slot && bit st 0 && fld st 3 1 == pid then some (Consumer.sink l i) else none))

def consumers (s : State) (cl ctx net slot pid : Nat) : List Consumer :=
  coreConsumers s cl ctx net slot pid ++ unitConsumers s cl ctx net slot ++ sinkConsumers s cl ctx net slot pid

/-- The tokens in a consumer's arrival queue. -/
def arrivalLen (s : State) (cl : Nat) : Consumer → Nat
  | .core c n => (tget (getCore s c).arrivals n []).length
  | .unit u i => (tget (unitOf (getCl s cl) u).inq i []).length
  | .sink l k => (tget (getLnk s l).sinkq k []).length

/-- A copy of a token goes into a consumer's arrival queue. A steering unit takes its copy of a section token and does not act on it. (log
112: DESIGN CHOICE.) -/
def deliver (cl : Nat) (t : Token) (s : State) : Consumer → State
  | .core c n => let k := getCore s c; setCore s c { k with arrivals := tset k.arrivals n (tget k.arrivals n [] ++ [t]) }
  | .unit u i =>
    let k := getCl s cl
    let x := unitOf k u
    if t.isSect then s else setCl s cl { k with units := tset k.units u { x with inq := tset x.inq i (tget x.inq i [] ++ [t]) } }
  | .sink l i => let q := getLnk s l; setLnk s l { q with sinkq := tset q.sinkq i (tget q.sinkq i [] ++ [t]) }

/-! ### Forwarding (R120, R122) -/
/-- Credit of one DST side: the far queue counts what is on its way; the local side asks every consumer. -/
def sideCredit (s : State) (cl net slot side : Nat) (cs : List Consumer) : Bool :=
  if side = 4 then cs.all (fun c => decide (arrivalLen s cl c < 2))
  else match neighbour cl side with
    | none => true
    | some nb =>
      let key := qkey (opposite side) net slot
      decide ((queueOf (getCl s nb) key).length + (crossOf (getCl s nb) key).length < 2)

/-- Every side in DST has credit. -/
def hasCredit (s : State) (cl net slot : Nat) (r : Word) (cs : List Consumer) : Bool :=
  (List.range 5).all (fun d => !rtDst r d || sideCredit s cl net slot d cs)

/-- Transfers that a token takes (R117 to R119): one, or a beat for each 128 bytes of a tile. -/
def Token.beats (t : Token) : Nat := match t.body with | .tile _ _ _ b => (b.length + 127) / 128 | _ => 1

/-- R398: fabric transfers that cross from cluster `a` to cluster `b` count at both dies. -/
def ddFabric (s : State) (a b n : Nat) : State :=
  let x := a / 40
  let y := b / 40
  if x = y then s
  else
    let sl := ddSlot x y
    let h1 := s.hub.setReg (ddOff x sl + 0x8) (hubReg s.hub (ddOff x sl + 0x8) + w32 n)
    { s with hub := h1.setReg (ddOff y sl + 0xC) (hubReg h1 (ddOff y sl + 0xC) + w32 n) }

/-- A token leaves on one DST side. -/
def sendSide (cl net slot : Nat) (t : Token) (s : State) (d : Nat) : State :=
  match neighbour cl d with
  | none => s
  | some nb =>
    let key := qkey (opposite d) net slot
    let k := getCl s nb
    ddFabric (setCl s nb { k with cross := tset k.cross key (crossOf k key ++ [t]) }) cl nb t.beats

/-- A token leaves on every DST side. With no bound consumer its local copy is discarded (R409). -/
def sendAll (s : State) (cl net slot : Nat) (r : Word) (cs : List Consumer) (t : Token) : State :=
  let s1 := ((List.range 4).filter (rtDst r)).foldl (sendSide cl net slot t) s
  if rtDst r 4 then
    (if cs.isEmpty then raisePart (setCl s1 cl ((getCl s1 cl).misroute 1)) (rtPid r) 2 else cs.foldl (deliver cl t) s1)
  else s1

/-- The first data token of a queue that can move: of the active context, enabled, behind no section token. A token of a context that is not
enabled stays. (log 106: DESIGN CHOICE.) -/
def movable (k : Cluster) (key : Nat) : Option Token :=
  ((queueOf k key).takeWhile (fun t => !t.isSect)).find? (fun t => t.ctx == swCtx k && swEnabled k t.ctx)

/-- The queue without one token. -/
def dropTok (k : Cluster) (key : Nat) (t : Token) : Cluster := { k with queues := tset k.queues key ((queueOf k key).erase t) }

/-- A ready input side of a slot, in the order N, E, S, W, local: the side and its token. -/
def readySide (s : State) (cl net slot : Nat) : Option (Nat × Token) :=
  let k := getCl s cl
  (List.range 5).findSome? (fun side => match movable k (qkey side net slot) with
    | none => none
    | some t =>
      let r := route k t.ctx net slot
      if hasCredit s cl net slot r (consumers s cl t.ctx net slot (rtPid r)) then some (side, t) else none)

/-- The slots of a net in rotating order, starting after the slot granted last. -/
def rotation (net last : Nat) : List Nat := (List.range (netSlots net)).map (fun i => (last + 1 + i) % netSlots net)

/-- A transfer that the switch grants: its slot, input side, token, route, local consumers. -/
structure Grant where
  slot : Nat
  side : Nat
  tok : Token
  rt : Word
  cs : List Consumer
  deriving DecidableEq, Repr

/-- Two routes share no output side. -/
def sidesApart (a b : Word) : Bool := (List.range 5).all (fun d => !(rtDst a d && rtDst b d))

/-- R122: the transfers of one cycle: each ready slot in rotating order, where every side in its DST is still free. (log 90: DEDUCED.) -/
def cycleGrants (s : State) (cl net : Nat) : List Grant :=
  let k := getCl s cl
  (rotation net (tget k.rot net (netSlots net - 1))).foldl (fun gs slot => match readySide s cl net slot with
    | none => gs
    | some (side, t) =>
      let r := route k t.ctx net slot
      if gs.all (fun g => sidesApart g.rt r) then gs ++ [{ slot := slot, side := side, tok := t, rt := r, cs := consumers s cl t.ctx net slot (rtPid r) }] else gs) []

/-- A granted transfer moves. -/
def takeGrant (cl net : Nat) (s : State) (g : Grant) : State :=
  sendAll (setCl s cl (dropTok (getCl s cl) (qkey g.side net g.slot) g.tok)) cl net g.slot g.rt g.cs g.tok

/-- SWITCH_FORWARD (R122): one cycle; the next starts after the slot granted first. A stopped island forwards nothing (R376). -/
def execSwitchForward (cl : ClIx) (net : Net) (s : State) : Out :=
  let n := Net.num net
  match cycleGrants s cl.val n with
  | [] => .next s
  | g :: gs =>
    if stopped s (.cluster cl.val) then .next s
    else
      let k := getCl s cl.val
      .next ((g :: gs).foldl (takeGrant cl.val n) (setCl s cl.val { k with rot := tset k.rot n g.slot }))

/-! ### Section tokens (R131, R132, R135) -/
/-- Keeps or discards, by a test, every token that the switch holds; the second part counts those that go. -/
def purge (k : Cluster) (keep : Token → Bool) : Cluster × Nat :=
  let f := fun (l : List Token) => l.filter keep
  let g := fun (l : List Token) => (l.filter (fun t => !keep t)).length
  ({ k with queues := k.queues.map (fun q => (q.1, f q.2)),
            units := k.units.map (fun u => (u.1, { u.2 with inq := u.2.inq.map (fun q => (q.1, f q.2)), ctl := f u.2.ctl, data := u.2.data.filter (fun d => keep d.2), ready := u.2.ready.filter (fun p => keep p.d && p.c.all keep), out := u.2.out.filter (fun d => keep d.2) })) },
   (k.queues.map (fun q => g q.2)).sum +
   (k.units.map (fun u => (u.2.inq.map (fun q => g q.2)).sum + g u.2.ctl + g (u.2.data.map (·.2)) + g (u.2.out.map (·.2)))).sum)

/-- Step 3 of R131: the active context is NEW, SEQ is recorded. -/
def swFinish (k : Cluster) (new : Nat) (seq : BitVec 16) : Cluster :=
  { k.setReg 0x104 (setFld (setFld (clReg k 0x104) 1 0 new) 31 16 seq.toNat) with sw := none }

def sectTrace (s : State) (cl pid mode old new : Nat) (seq : BitVec 16) : State :=
  emitTrace s pid cl { TraceRec.blank with evt := 4, ctx := new, place := placeCl cl, args := [w32 (mode + old * 4 + new * 16 + seq.toNat * 2 ^ 16)] }

/-- The switch of R132 in its mode; PARK with more than 16 tokens on a side and net proceeds as DRAIN (KL-06). Section tokens that wait in the queues
are no tokens of CTX here. (log 145: DEDUCED.) -/
def sectSwitch (s : State) (cl pid mode old new : Nat) (seq : BitVec 16) : State :=
  let k := getCl s cl
  let full := (List.range 15).any (fun i => decide (heldCount k (i / 3) (i % 3) (fun c => c == old) > 16))
  if mode = 2 then
    let p := purge k (fun t => t.isSect || t.ctx != old)
    let s1 := setCl s cl (swFinish (p.1.discard p.2) new seq)
    sectTrace (if p.2 = 0 then s1 else raisePart s1 pid 2) cl pid mode old new seq
  else if mode = 0 || full then setCl s cl { k with sw := some { pid := pid, mode := mode, old := old, new := new, seq := seq } }
  else sectTrace (setCl s cl (swFinish k new seq)) cl pid mode old new seq

/-- SECTION_TOKEN (R131): the section token at the head of its context in a control queue: forwarded, then acted on. -/
def execSectionToken (cl : ClIx) (side : Side) (slot : Fin 16) (s : State) : Out := running s <|
  let k := getCl s cl.val
  let key := qkey (Side.num side) 2 slot.val
  match (queueOf k key).find? Token.isSect with
  | none => .next s
  | some t =>
    let ahead := ((queueOf k key).takeWhile (fun u => !u.isSect)).any (fun u => u.ctx == t.ctx)
    let r := route k t.ctx 2 slot.val
    let cs := consumers s cl.val t.ctx 2 slot.val (rtPid r)
    if k.sw.isSome || ahead || !(swEnabled k t.ctx) || !(hasCredit s cl.val 2 slot.val r cs) then .next s
    else
      let s1 := sendAll (setCl s cl.val (dropTok k key t)) cl.val 2 slot.val r cs t
      match t.body with
      | .sect mode new seq =>
        if t.ctx ≠ swCtx k ∨ new = swCtx k then .next (setCl s1 cl.val ((getCl s1 cl.val).count 0x10C 1))
        else .next (sectSwitch s1 cl.val (rtPid r) mode t.ctx new seq)
      | _ => .next s1

/-- SWITCH_DRAIN_END (R132): no data token of the old context remains in a queue or a steering store. -/
def execSwitchDrainEnd (cl : ClIx) (s : State) : Out := running s <|
  let k := getCl s cl.val
  match k.sw with
  | none => .next s
  | some w =>
    if (purge k (fun t => t.isSect || t.ctx != w.old)).2 > 0 then .next s
    else
      .next (sectTrace (setCl s cl.val (swFinish k w.new w.seq)) cl.val w.pid w.mode w.old w.new w.seq)

/-! ### Steering units (R127 to R130) -/
/-- The first token of a context at an input. -/
def inHead (x : SUnit) (ctx i : Nat) : Option Token := (tget x.inq i []).find? (fun t => t.ctx == ctx && !t.isSect)

/-- The control value of a token. -/
def Token.ctlOn (t : Token) : Bool := match t.body with | .word w => w != 0 | _ => false

/-- What a unit can pair in a context: control tokens, tokens of IN_D, tokens of IN_B: held ones first, then the one that arrives. -/
def unitCtl (x : SUnit) (ctx : Nat) : List Token := x.ctl.filter (fun t => t.ctx == ctx) ++ (inHead x ctx 0).toList
def unitData (x : SUnit) (ctx : Nat) (b : Bool) : List Token :=
  (x.data.filter (fun d => d.1 == b && d.2.ctx == ctx)).map (·.2) ++ (inHead x ctx (if b then 2 else 1)).toList

/-- R129: the pairs that are complete. -/
def unitPairs (x : SUnit) (w : Word) (ctx : Nat) : List SPair :=
  if stMode w = 2 then
    (unitData x ctx true).map (fun d => { c := none, d := d, fromB := true, out := stOutA w }) ++
    (unitData x ctx false).map (fun d => { c := none, d := d, fromB := false, out := stOutA w })
  else
    (unitCtl x ctx).filterMap (fun c =>
      let b := stMode w == 1 && c.ctlOn
      let o := if stMode w = 0 ∧ c.ctlOn = false then stOutB w else stOutA w
      ((unitData x ctx b).find? (fun d => d.tag == c.tag)).map (fun d => { c := some c, d := d, fromB := b, out := o }))

/-- Into a list of pairs that complete at once, the older tag first (R129). -/
def insertPair (p : SPair) : List SPair → List SPair
  | [] => [p]
  | q :: qs => if younger q.d.tag p.d.tag then p :: q :: qs else q :: insertPair p qs

/-- R129: the complete pairs of a context in the order in which they completed: those that were complete before, then those that are so now.
(log 114: DEDUCED.) -/
def readyPairs (x : SUnit) (w : Word) (ctx : Nat) : List SPair :=
  let ps := unitPairs x w ctx
  let old := x.ready.filter (fun p => ps.contains p)
  old ++ ((ps.filter (fun p => !(old.contains p))).eraseDups.foldl (fun l p => insertPair p l) [])

/-- A control token leaves its store or input; a data token leaves its store or input. -/
def takeCtl (x : SUnit) (t : Token) : SUnit :=
  if x.ctl.contains t then { x with ctl := x.ctl.erase t } else { x with inq := tset x.inq 0 ((tget x.inq 0 []).erase t) }
def takeData (x : SUnit) (b : Bool) (t : Token) : SUnit :=
  if x.data.contains (b, t) then { x with data := x.data.erase (b, t) }
  else let i := if b then 2 else 1; { x with inq := tset x.inq i ((tget x.inq i []).erase t) }

/-- R128: the room of the data store. -/
def dataRoom (w : Word) : Nat := if stNet w = 1 then 4 else 32

/-- R128: the token at the head of an input takes an entry where its partner is not held and an entry is free. The second part says that it
found none. -/
def storeHead (w : Word) (ctx : Nat) (z : SUnit × Bool) (i : Nat) : SUnit × Bool :=
  let x := z.1
  let waits := fun (t : Token) => !((unitPairs x w ctx).any (fun p => if i = 0 then p.c == some t else p.d == t && p.fromB == (i == 2)))
  match (inHead x ctx i).filter waits with
  | none => z
  | some t =>
    if i = 0 then (if x.ctl.length < 32 then ({ takeCtl x t with ctl := x.ctl ++ [t] }, z.2) else (x, true))
    else if x.data.length < dataRoom w then ({ takeData x (i == 2) t with data := x.data ++ [(i == 2, t)] }, z.2)
    else (x, true)

/-- R128: the heads of the three inputs. MERGE_ANY keeps nothing: each of its tokens is a pair. -/
def unitStore (x : SUnit) (w : Word) (ctx : Nat) : SUnit × Bool :=
  if stMode w = 2 then (x, false) else [0, 1, 2].foldl (storeHead w ctx) (x, false)

/-- R130: a tag on both inputs of MERGE_ANY. -/
def mergeDup (x : SUnit) (w : Word) (ctx : Nat) : Bool :=
  stMode w == 2 && (unitData x ctx true).any (fun a => (unitData x ctx false).any (fun b => a.tag == b.tag))

/-- The partition of a steering entry: that of its data input's route. (log 91: DEDUCED.) -/
def steerPid (k : Cluster) (ctx u : Nat) : Option Nat :=
  let w := steer k ctx u
  let r := route k ctx (stNet w) (stInD w)
  if rtValid r then some (rtPid r) else none

/-- One cycle of a unit: the first complete pair whose output is free leaves, then heads without a partner are stored. The second part says
that a head found no entry. -/
def unitCycle (x : SUnit) (w : Word) (ctx : Nat) : SUnit × Bool :=
  let rest := x.ready.filter (fun p => p.d.ctx != ctx)
  let ps := readyPairs x w ctx
  match ps.find? (fun p => !(x.out.any (fun o => o.1 == p.out))) with
  | some p =>
    let y := takeData (match p.c with | some c => takeCtl x c | none => x) p.fromB p.d
    unitStore { y with ready := rest ++ ps.erase p, out := y.out ++ [(p.out, { p.d with ctx := ctx })] } w ctx
  | none => unitStore { x with ready := rest ++ ps } w ctx

/-- STEERING_PAIR (R128 to R130): one cycle of the unit; a wait for an entry is counted. A stopped island pairs nothing (R376). -/
def execSteeringPair (cl : ClIx) (u : Fin 16) (s : State) : Out :=
  let k := getCl s cl.val
  let ctx := swCtx k
  let w := steer k ctx u.val
  let x := unitOf k u.val
  let put := fun (y : SUnit) => { k with units := tset k.units u.val y }
  if !bit w 0 || !swEnabled k ctx || x.stopped.getLsbD ctx || stopped s (.cluster cl.val) then .next s
  else if mergeDup x w ctx then
    let k1 := put { x with stopped := setBit x.stopped ctx true }
    let s1 := setCl s cl.val ((k1.setReg 0x110 (setBit (clReg k1 0x110) u.val true)).setStat 5)
    .next (match steerPid k ctx u.val with | some p => raisePart s1 p 2 | none => s1)
  else
    let z := unitCycle x w ctx
    .next (setCl s cl.val (if z.2 then (put z.1).count (0x140 + 4 * u.val) 1 else put z.1))

/-! ### CL_SW_CTL (R116) -/
/-- Format faults of a route entry of a net. -/
def routeBad (cl net : Nat) (r : Word) : Bool :=
  bit r 31 || (rtSect r && net != 2) || (List.range 4).any (fun d => (rtSrc r d || rtDst r d) && (neighbour cl d).isNone)

/-- Format faults of a steering entry (R127). -/
def steerBad (w : Word) : Bool :=
  let big := fun (n : Nat) => stNet w == 1 && decide (n ≥ 8)
  fld w 31 28 != 0 || stMode w == 3 || big (stInD w) || big (stInB w) || big (stOutA w) || big (stOutB w) ||
  (stMode w == 0 && stInB w != 0) || (stMode w == 2 && stInC w != 0) || (stMode w != 0 && stOutB w != 0)

/-- The routes of the slots that a steering entry uses: their partitions. -/
def steerPids (k : Cluster) (ctx : Nat) (w : Word) : List Nat :=
  let n := stNet w
  let rs := [route k ctx n (stInD w), route k ctx n (stOutA w)] ++ (if stMode w = 0 then [route k ctx n (stOutB w)] else [route k ctx n (stInB w)]) ++
    (if stMode w < 2 then [route k ctx 2 (stInC w)] else [])
  (rs.filter rtValid).map rtPid

/-- R116: the check of a context: 0 accepted, else the reason. -/
def swCheck (k : Cluster) (cl ctx : Nat) : Nat :=
  let rBad := (List.range 3).any (fun net => (List.range (netSlots net)).any (fun sl =>
    let r := route k ctx net sl
    rtValid r && routeBad cl net r))
  let us := (List.range 16).map (fun u => steer k ctx u) |>.filter (fun w => bit w 0)
  if rBad || us.any steerBad then 0x06
  else if us.any (fun w => match steerPids k ctx w with | [] => false | p :: ps => ps.any (· != p)) then 0x0E
  else 0

/-- R116: a context is disabled: its tokens in the switch go, its stopped units are released. -/
def swDisable (k : Cluster) (ctx : Nat) : Cluster :=
  let p := purge k (fun t => t.ctx != ctx)
  let k1 := p.1.discard p.2
  let k2 := { k1 with units := k1.units.map (fun u => (u.1, { u.2 with stopped := setBit u.2.stopped ctx false })) }
  let dup := (List.range 16).foldl (fun a u => if (unitOf k2 u).stopped = 0 then a else a + 2 ^ u) 0
  let k3 := (k2.setReg 0x110 (w32 dup)).setReg 0x104 (setBit (clReg k2 0x104) 5 (dup != 0))
  k3.setReg 0x100 (setBit (clReg k3 0x100) ctx false)

/-- One masked bit of CL_SW_CTL. -/
def swCtlBit (cl : Nat) (v : Word) (k : Cluster) (ctx : Nat) : Cluster :=
  if !bit v (16 + ctx) then k
  else if !bit v ctx then (if swEnabled k ctx then swDisable k ctx else k)
  else if swEnabled k ctx then k
  else
    let c := swCheck k cl ctx
    let k1 := k.setReg 0x104 (setFld (clReg k 0x104) 15 8 c)
    if c = 0 then k1.setReg 0x100 (setBit (clReg k1 0x100) ctx true) else k1

/-- A write of CL_SW_CTL (R116, R363): cleared bits first, then the enables in ascending order, of which the last check stays in REASON.
(log 108: DESIGN CHOICE.) -/
def swCtlWrite (k : Cluster) (cl : Nat) (v : Word) : Cluster :=
  let offs := (List.range 4).filter (fun c => !bit v c)
  let ons := (List.range 4).filter (fun c => bit v c)
  ons.foldl (swCtlBit cl v) (offs.foldl (swCtlBit cl v) k)

end Sys2Proof.Machine
end

