-- ==== Sys2Proof/Machine/Tiers.lean ====
section
/-! DEFINITION. The tiers (R187 to R198, R214 to R217): staging SRAM, LPDDR6 pages, host pages behind the cipher; how bytes are read and
written there and what stops an access. -/
namespace Sys2Proof.Machine

/-! ### Page-table entries (R197) -/
def ptEnt (s : State) (p space page : Nat) : BitVec 128 :=
  if space = 2 then tget (getPart s p).pt2 page 0 else tget (getPart s p).pt3 page 0
def ptValid (e : BitVec 128) : Bool := bit e 0
def ptRdonly (e : BitVec 128) : Bool := bit e 2
def ptPoison (e : BitVec 128) : Bool := bit e 3
def ptPkg (e : BitVec 128) : Nat := fld e 11 8
def ptFrame (e : BitVec 128) : Nat := fld e 25 12
def ptEpoch (e : BitVec 128) : Nat := fld e 15 8
def ptHaddr (e : BitVec 128) : Nat := fld e 63 21 * 2 ^ 21
def ptTag (e : BitVec 128) : Nat := fld e 127 81 * 2 ^ 17

/-- Pages of a space (R196). -/
def pageMax (space : Nat) : Nat := if space = 2 then 262144 else 1048576

/-- R196: the entry of the page of an address, if it is mapped. -/
def pageOf (s : State) (p space addr : Nat) : Option (BitVec 128) :=
  let page := addr / 2 ^ 21
  if page ≥ pageMax space then none
  else
    let e := ptEnt s p space page
    if ptValid e then some e else none

/-! ### Who accesses -/
/-- The partition, the cluster whose staging SRAM SPACE 1 names, and whether the access is the reserving station's (R188, R244). -/
structure Who where
  pid : Nat
  cl : Nat
  stn : Bool
  deriving DecidableEq, Repr

/-- A failure at an address (R211, R212). -/
def failAt (code detail space addr : Nat) : RlFail :=
  { code := code, detail := detail, tier := space, page := if space = 1 then fld (w32 addr) 22 16 else addr / 2 ^ 21 % 2 ^ 20,
    sector := if space = 3 then addr % 2 ^ 21 / 512 else 0, addr := addr, wr := false }
def E_REFUSED : Nat := 1
def E_POISON : Nat := 2
def E_CONTAINER : Nat := 3
def E_AUTH : Nat := 4
def E_NO_KEY : Nat := 5
def E_HOST : Nat := 6
def E_ENTRY : Nat := 7

/-- R21: a station that is enabled reserves 0x70_0000 to 0x7F_FFFF of its attachment cluster. -/
def stationOn (s : State) (m : Nat) : Bool := bit (mcReg (getMc s m) 0x1000) 0
def reserved (s : State) (cl : Nat) : Bool := (List.range 16).any (fun m => mcCluster m == cl && stationOn s m)

/-- The firewall on a staging address (R140, R188). -/
def stagingRefusal (s : State) (w : Who) (addr : Nat) : Option Nat :=
  if addr ≥ 0x800000 then firstCode (pidDown s w.pid) true false false
  else
    let o := stagingOwner s w.cl (addr / 65536)
    if reserved s w.cl && decide (addr ≥ 0x700000) then firstCode (pidDown s w.pid) false (!w.stn) false
    else firstCode (pidDown s w.pid || o.any (inPass s)) (o.isNone && w.pid != 0xF) (w.pid != 0xF && o != some w.pid) false

/-- The firewall on a page (R140, R196, R197). -/
def pageRefusal (s : State) (p space addr : Nat) (wr : Bool) : Option Nat :=
  let e := pageOf s p space addr
  firstCode (pidDown s p) e.isNone false (wr && e.any ptRdonly)

/-- The slot whose epoch a page names, if it is not EMPTY (R217). -/
def keySlot (s : State) (p epoch : Nat) : Option Nat :=
  let st := partReg (getPart s p) 0x164
  (List.range 2).find? (fun k => fld st (2 * k + 1) (2 * k) != 0 && fld st (11 + 8 * k) (4 + 8 * k) == epoch)
def slotState (s : State) (p k : Nat) : Nat := fld (partReg (getPart s p) 0x164) (2 * k + 1) (2 * k)
def slotEpoch (s : State) (p k : Nat) : Nat := fld (partReg (getPart s p) 0x164) (11 + 8 * k) (4 + 8 * k)
def KeySlot.blank : KeySlot := { key := .session 0, ctr := 0, load := 0 }
def slotKey (s : State) (p k : Nat) : KeySlot := tget (getPart s p).slots k KeySlot.blank

/-- R215, R216: a sector as it is in host memory, if it verifies. -/
def sectorOf (s : State) (p addr : Nat) (e : BitVec 128) (k : Nat) : Option HostSec :=
  let sec := addr % 2 ^ 21 / 512
  s.hub.host.find? (fun h => h.part == p && h.addr == ptHaddr e + 512 * sec && h.tagAddr == ptTag e + 32 * sec && h.epoch == ptEpoch e &&
    h.page == addr / 2 ^ 21 && h.sector == sec && h.key == (slotKey s p k).key)

/-! ### Reading -/
/-- A byte range cut at the multiples of m: addresses and lengths. -/
def cutAt (m a n : Nat) : List (Nat × Nat) :=
  if n = 0 then []
  else (List.range ((a + n - 1) / m - a / m + 1)).map (fun i =>
    let lo := max a ((a / m + i) * m)
    let hi := min (a + n) ((a / m + i + 1) * m)
    (lo, hi - lo))
/-- A byte range cut at the boundaries of stripe units. -/
def unitsOf (a n : Nat) : List (Nat × Nat) := cutAt 256 a n

/-- R192: the sub-channel of stripe unit u of frame f. -/
def subOf (f u : Nat) : Nat := (u + f) % 16
/-- A unit lies on a sub-channel that has failed and is not yet retired (R339). -/
def subDown (k : Mc) (f u : Nat) : Bool := bit k.failed (subOf f u)

def frameMem (k : Mc) (f : Nat) : Mem := tget k.frames f []

/-- Part of one unit, read; or what fails (R194, R211). -/
def readUnit (s : State) (w : Who) (space addr n : Nat) : Except RlFail (List Byte) :=
  if space = 1 then
    match stagingRefusal s w addr with
    | some c => .error (failAt E_REFUSED c 1 addr)
    | none => .ok (mreads (getCl s w.cl).staging addr n)
  else match pageRefusal s w.pid space addr false, pageOf s w.pid space addr with
    | some c, _ => .error (failAt E_REFUSED c space addr)
    | none, none => .error (failAt E_REFUSED NOT_MAPPED space addr)
    | none, some e =>
      if space = 2 then
        let k := getMc s (ptPkg e)
        if ptPoison e || subDown k (ptFrame e) (addr % 2 ^ 21 / 256) || k.poison.contains (ptFrame e, addr % 2 ^ 21 / 256) then .error (failAt E_POISON 0 2 addr)
        else .ok (mreads (frameMem k (ptFrame e)) (addr % 2 ^ 21) n)
      else match keySlot s w.pid (ptEpoch e) with
        | none => .error (failAt E_NO_KEY (ptEpoch e) 3 addr)
        | some k => match sectorOf s w.pid addr e k with
          | none => .error (failAt E_AUTH 0 3 addr)
          | some h => .ok (mreads h.data (addr % 512) n)

/-- Units in order; the first failure stops. -/
def readUnits (s : State) (w : Who) (space : Nat) : List (Nat × Nat) → Except RlFail (List Byte)
  | [] => .ok []
  | u :: us => match readUnit s w space u.1 u.2 with
    | .error f => .error f
    | .ok b => match readUnits s w space us with
      | .error f => .error f
      | .ok r => .ok (b ++ r)

/-- Bytes of a tier. -/
def tierRead (s : State) (w : Who) (space addr n : Nat) : Except RlFail (List Byte) := readUnits s w space (unitsOf addr n)

/-! ### Poison and burst errors (R194, R195) -/
/-- Entries of pages leave every translation cache (R198, R321). -/
def dropXlate (s : State) (p space : Nat) (hit : Nat → Bool) : State :=
  let keep := fun (l : List (Nat × Nat × Nat)) => l.filter (fun e => !(e.1 == p && e.2.1 == space && hit e.2.2))
  { s with clusters := s.clusters.map (fun c => (c.1, { c.2 with xlate := keep c.2.xlate })),
           mcs := s.mcs.map (fun m => (m.1, { m.2 with stn := { m.2.stn with xlate := keep m.2.stn.xlate } })),
           hub := { s.hub with xlate := keep s.hub.xlate } }

/-- MC_POISON_CNT follows (R195). -/
def poisonCount (s : State) (m : Nat) : State :=
  let k := getMc s m
  let n := ((List.range 8).map (fun p => ((getPart s p).pt2.filter (fun e => ptValid e.2 && ptPkg e.2 == m && ptPoison e.2)).length)).sum
  setMc s m (k.setReg 0x208 (w32 (k.poison.length % 512 + n % 65536 * 2 ^ 16)))

/-- R194: one unit of a frame is poisoned; past 256 units, its page-table entry. (log 97: DEDUCED.) -/
def poisonUnit (s : State) (m f u : Nat) : State :=
  let k := getMc s m
  if k.poison.contains (f, u) then s
  else if k.poison.length < 256 then poisonCount (setMc s m { k with poison := k.poison ++ [(f, u)] }) m
  else
    let hit := fun (e : BitVec 128) => ptValid e && ptPkg e == m && ptFrame e == f
    poisonCount ((List.range 8).foldl (fun s p =>
      let pages := ((getPart s p).pt2.filter (fun e => hit e.2)).map (·.1)
      dropXlate (modPart s p (fun q => { q with pt2 := q.pt2.map (fun e => (e.1, if hit e.2 then setBit e.2 3 true else e.2)) })) p 2 (fun n => pages.contains n)) s) m

/-- R194: one burst with an error, in a unit of a page: corrected, it is counted; uncorrectable, it poisons the unit. -/
def eccBurst (s : State) (p : Nat) (u : Nat × Nat) (fixed : Bool) : State :=
  match pageOf s p 2 u.1 with
  | none => s
  | some e =>
    if fixed then let k := getMc s (ptPkg e); setMc s (ptPkg e) (k.setReg 0x204 (bump 0xFFFFFFFF (mcReg k 0x204) 1))
    else poisonUnit s (ptPkg e) (ptFrame e) (u.1 % 2 ^ 21 / 256)
/-- R194: what the burst code found in a read of LPDDR6 ranges. -/
def eccRead (s : State) (p : Nat) (rs : List (Nat × Nat)) (ecc : Ecc) : State :=
  let us := rs.flatMap (fun r => unitsOf r.1 r.2)
  ecc.bursts.foldl (fun s b => match us[b.unit]? with | none => s | some u => eccBurst s p u b.fixed) s

/-! ### Writing -/
/-- What stops a write to part of one unit. A host sector that the write covers only in part is read first (R215). -/
def writeUnitFail (s : State) (w : Who) (space addr : Nat) (part : Bool) : Option RlFail :=
  if space = 1 then (stagingRefusal s w addr).map (fun c => failAt E_REFUSED c 1 addr)
  else match pageRefusal s w.pid space addr true, pageOf s w.pid space addr with
    | some c, _ => some (failAt E_REFUSED c space addr)
    | none, none => some (failAt E_REFUSED NOT_MAPPED space addr)
    | none, some e =>
      if space = 2 then none
      else match keySlot s w.pid (ptEpoch e) with
        | none => some (failAt E_NO_KEY (ptEpoch e) 3 addr)
        | some k => if part && (sectorOf s w.pid addr e k).isNone then some (failAt E_AUTH 0 3 addr) else none

/-- Every byte of a range is in some write. -/
def coversRange (ws : List (Nat × List Byte)) (a n : Nat) : Bool :=
  (List.range n).all (fun i => ws.any (fun w => decide (w.1 ≤ a + i) && decide (a + i < w.1 + w.2.length)))

/-- The first failure of some writes. -/
def writeFail (s : State) (w : Who) (space : Nat) (ws : List (Nat × List Byte)) : Option RlFail :=
  (ws.findSome? (fun x => (unitsOf x.1 x.2.length).findSome? (fun u =>
    writeUnitFail s w space u.1 (space == 3 && !(coversRange ws (u.1 / 512 * 512) 512))))).map (fun f => { f with wr := true })

/-- LPDDR6 bytes stored, those on a failed sub-channel discarded (R339); a poisoned unit that some writes cover whole is cleared (R194). -/
def dramPut (s : State) (p : Nat) (ws : List (Nat × List Byte)) : State :=
  let s1 := ws.foldl (fun s x => (unitsOf x.1 x.2.length).foldl (fun s u =>
    match pageOf s p 2 u.1 with
    | none => s
    | some e =>
      let k := getMc s (ptPkg e)
      if subDown k (ptFrame e) (u.1 % 2 ^ 21 / 256) then s else
      let m := mwrites (frameMem k (ptFrame e)) (u.1 % 2 ^ 21) ((x.2.drop (u.1 - x.1)).take u.2)
      setMc s (ptPkg e) { k with frames := tset k.frames (ptFrame e) m }) s) s
  (List.range 16).foldl (fun s m =>
    let k := getMc s m
    let gone := k.poison.filter (fun q => !(subDown k q.1 q.2) && (getPart s p).pt2.any (fun e => ptValid e.2 && ptPkg e.2 == m && ptFrame e.2 == q.1 &&
      coversRange ws (e.1 * 2 ^ 21 + q.2 * 256) 256))
    if gone.isEmpty then s else poisonCount (setMc s m { k with poison := k.poison.filter (fun q => !(gone.contains q)) }) m) s1

/-- Posted writes of a partition's function: they leave, or wait until it may send (R301). -/
def hostPost (s : State) (p : Nat) (ms : List Msg) : State :=
  if hostOpen s p then { s with outbox := s.outbox ++ ms }
  else modPart s p (fun k => { k with fn := { k.fn with held := k.fn.held ++ ms } })

/-- The posted writes that wait leave, once they may. -/
def postFlush (s : State) (p : Nat) : State :=
  if hostOpen s p then
    let s1 := { s with outbox := s.outbox ++ (getPart s p).fn.held }
    modPart s1 p (fun k => { k with fn := { k.fn with held := [] } })
  else s

/-! ### The host-tier cipher (R214, R323) -/
/-- The key's 256 bits: a SESSION key is one of its own, a FIXED key is derived from "DZV-HT", label and epoch. -/
def HKey.bits : HKey → BitVec 256
  | .session n => Config.sessionKey n
  | .fixed label epoch => Config.hkdf ([0x44#8, 0x5A#8, 0x56#8, 0x2D#8, 0x48#8, 0x54#8] ++ leBytes 16 label.toNat ++ leBytes 1 epoch.toNat)
/-- R214: the additional authenticated data of a sector. -/
def sectorAad (h : HostSec) : List Byte := leBytes 8 (h.part % 8 + h.epoch % 256 * 2 ^ 8 + h.page % 2 ^ 20 * 2 ^ 16 + h.sector % 2 ^ 12 * 2 ^ 36)
/-- R214: the nonce: write counter, load number. -/
def sectorNonce (h : HostSec) : List Byte := leBytes 8 h.ctr.toNat ++ leBytes 4 h.load.toNat
/-- The ciphertext of a sector and its tag. -/
def sectorSeal (h : HostSec) : List Byte × BitVec 128 :=
  Config.gcm h.key.bits (BitVec.ofNat 96 (leNat (sectorNonce h))) (sectorAad h) (mblock h.data 0 512)
/-- R214: the 32-byte record of a sector. -/
def sectorRecord (h : HostSec) : List Byte := sectorNonce h ++ leBytes 16 (sectorSeal h).2.toNat ++ leBytes 4 0
/-- What the host receives of a sector. -/
def sectorMsg (h : HostSec) : Msg := .hostSector h.part h.addr h.tagAddr (sectorSeal h).1 (sectorRecord h)
/-- Sectors are written: each takes its place in host memory, and what stood there may come back (R216). -/
def hostStore (s : State) (p : Nat) (hs : List HostSec) : State :=
  let old := fun (g : HostSec) => hs.any (fun h => h.part == g.part && h.addr == g.addr)
  hostPost { s with hub := { s.hub with host := hs ++ s.hub.host.filter (fun g => !(old g)), hostOld := s.hub.host.filter old ++ s.hub.hostOld } } p (hs.map sectorMsg)

/-- CTR_CIPHER (R397) gains the sectors that pass through the cipher. (log 130: DEDUCED.) -/
def cipherCount (s : State) (n : Nat) : State := modHub s (fun h => h.setReg 0x301008 (hubReg h 0x301008 + w32 n))

/-- A host sector written with a fresh nonce (R214, R215). -/
def sectorPut (s : State) (p addr : Nat) (ws : List (Nat × List Byte)) : State :=
  match pageOf s p 3 addr with
  | none => s
  | some e => match keySlot s p (ptEpoch e) with
    | none => s
    | some k =>
      let sk := slotKey s p k
      let base := addr / 512 * 512
      let old : Mem := match sectorOf s p addr e k with | some h => h.data | none => []
      let data := ws.foldl (fun m x =>
        let lo := max x.1 base
        let hi := min (x.1 + x.2.length) (base + 512)
        if lo < hi then mwrites m (lo - base) ((x.2.drop (lo - x.1)).take (hi - lo)) else m) old
      let sec := addr % 2 ^ 21 / 512
      let h : HostSec := { part := p, addr := ptHaddr e + 512 * sec, tagAddr := ptTag e + 32 * sec, epoch := ptEpoch e, page := addr / 2 ^ 21,
                           sector := sec, key := sk.key, ctr := sk.ctr, load := sk.load, data := data }
      let q := getPart s p
      let s1 := setPart s p { q with slots := tset q.slots k { sk with ctr := sk.ctr + 1 } }
      cipherCount (hostStore s1 p [h]) 1

/-- The sectors that some writes touch, in the order of first touch. -/
def touchedSectors (ws : List (Nat × List Byte)) : List Nat :=
  (ws.flatMap (fun x => (unitsOf x.1 x.2.length).map (fun u => u.1 / 512))).foldl (fun l a => if l.contains a then l else l ++ [a]) []

/-- Writes stored in a tier, unchecked. -/
def rawPut (s : State) (w : Who) (space : Nat) (ws : List (Nat × List Byte)) : State :=
  if space = 1 then
    let k := getCl s w.cl
    setCl s w.cl { k with staging := ws.foldl (fun m x => mwrites m x.1 x.2) k.staging }
  else if space = 2 then dramPut s w.pid ws
  else (touchedSectors ws).foldl (fun s a => sectorPut s w.pid (a * 512) ws) s

/-! ### Mesh flits of bulk traffic (R398) -/
/-- The mesh flits of a store: each 256-byte unit goes to its controller, or to the hub for the host, and is acknowledged (R398; log 113). -/
def ddStore (s : State) (src : Node) (p space : Nat) (ws : List (Nat × List Byte)) : State :=
  if space < 2 then s
  else (ws.flatMap (fun x => unitsOf x.1 x.2.length)).foldl (fun s u =>
    ddTrip s src (if space = 2 then .mc ((pageOf s p 2 u.1).elim 0 ptPkg) else .hub 0) (bulkFlits u.2) 1) s

/-- The mesh flits of a load from LPDDR6 or the host. -/
def ddLoad (s : State) (dst : Node) (p space : Nat) (rs : List (Nat × Nat)) : State :=
  if space < 2 then s
  else (rs.flatMap (fun r => unitsOf r.1 r.2)).foldl (fun s u =>
    ddTrip s dst (if space = 2 then .mc ((pageOf s p 2 u.1).elim 0 ptPkg) else .hub 0) 1 (bulkFlits u.2)) s

/-! ### The hub cache (R190) -/
/-- A store that the cache holds lies on a line that some writes touch. -/
def dirtyHit (s : State) (h : Nat) (w : Who) (space : Nat) (ws : List (Nat × List Byte)) : HccAccess → Bool
  | .store sp cl a bs =>
    sp.val == space && (if space = 1 then cl.val == w.cl else hccOwner s h == some w.pid) &&
      ws.any (fun x => decide (x.1 / 64 * 64 < (a.toNat + bs.length + 63) / 64 * 64) && decide (a.toNat / 64 * 64 < (x.1 + x.2.length + 63) / 64 * 64))
  | _ => false

/-- One store of a host-class core reaches its tier, or is refused there. -/
def storeBack (s : State) (h : Nat) : HccAccess → State
  | .store sp cl a bs =>
    match hccOwner s h with
    | none => s
    | some p =>
      let w : Who := { pid := p, cl := cl.val, stn := false }
      let ws := [(a.toNat, bs)]
      match writeFail s w sp.val ws with
      | some f => fwRefuse s (if sp.val = 1 then .cluster cl.val else .mc ((pageOf s p 2 a.toNat).elim 0 ptPkg)) p 1 f.detail (nodeCode (.hub (16 + h))) a.toNat
      | none =>
        let s1 := if sp.val = 1 then ddTrip s (.hub (16 + h)) (.cluster cl.val) (bulkFlits bs.length) 1 else ddStore s (.hub (16 + h)) p sp.val ws
        rawPut s1 w sp.val ws
  | _ => s

/-- The stores of a host-class core that a test selects are written back, oldest first. -/
def writeBack (s : State) (h : Nat) (sel : HccAccess → Bool) : State :=
  let l := tget s.hub.hccDirty h []
  let s1 := { s with hub := { s.hub with hccDirty := tset s.hub.hccDirty h (l.filter (fun x => !(sel x))) } }
  (l.filter sel).foldl (fun s x => storeBack s h x) s1

/-- R190: before a write is stored, the lines that it touches leave the hub cache (written back: DEDUCED, log 21). -/
def invalidateLines (s : State) (w : Who) (space : Nat) (ws : List (Nat × List Byte)) : State :=
  s.hub.hccDirty.foldl (fun s d => if d.2.any (dirtyHit s d.1 w space ws) then writeBack s d.1 (dirtyHit s d.1 w space ws) else s) s

/-- Writes stored in a tier, behind the hub cache. -/
def tierPut (s : State) (w : Who) (space : Nat) (ws : List (Nat × List Byte)) : State :=
  rawPut (if space = 3 then s else invalidateLines s w space ws) w space ws

/-! ### Translation caches (R198) -/
/-- A cache after an access: the entry comes first; a miss drops the least recently used entry of a full cache. -/
def touchCache (n : Nat) (l : List (Nat × Nat × Nat)) (e : Nat × Nat × Nat) : List (Nat × Nat × Nat) := e :: (l.erase e).take (n - 1)

/-! ### Requests to the host (R295, R301) -/
/-- Max_Read_Request_Size in bytes: bits [14:12] of Device Control, 512 at reset; its offset is PRESUMED (log 8). -/
def maxRead (s : State) : Nat := 128 * 2 ^ min 5 (fld (tget s.hub.pf.cfg 0x78 0x2000#32) 14 12)

/-- A piece of host memory to be read: bus address, bytes, the SPACE 3 address of the first sector that it serves, whether it holds sectors or their
records. -/
structure HostPiece where
  addr : Nat
  len : Nat
  dev : Nat
  data : Bool
  deriving DecidableEq, Repr

/-- Read requests for some pieces of host memory; those that may not leave wait (log 22). -/
def hostAsk (s : State) (p : Nat) (why : ReqFor) (pieces : List HostPiece) : State × List Nat :=
  let open_ := hostOpen s p
  pieces.foldl (fun (a : State × List Nat) x =>
    let t := a.1.hub.nextTag
    let h := a.1.hub
    let go := open_ && decide ((h.reqs.filter (·.sent)).length < 512)
    let s1 := { a.1 with hub := { h with nextTag := t + 1, reqs := h.reqs ++ [{ tag := t, part := p, addr := x.addr, len := x.len, dev := x.dev, data := x.data, for_ := why, sent := go }] },
                         outbox := if go then a.1.outbox ++ [.hostRead p t x.addr x.len] else a.1.outbox }
    (s1, a.2 ++ [t])) (s, [])

/-- Requests that wait leave, oldest first, while their partition may send and 512 are not yet outstanding (R295, R301). -/
def hostKick (s : State) : State :=
  (s.hub.reqs.filter (fun r => !r.sent)).foldl (fun s r =>
    if hostOpen s r.part && decide ((s.hub.reqs.filter (·.sent)).length < 512) then
      { s with hub := { s.hub with reqs := s.hub.reqs.map (fun q => if q.tag = r.tag then { q with sent := true } else q) },
               outbox := s.outbox ++ [.hostRead r.part r.tag r.addr r.len] }
    else s) s

/-- The sectors (numbered through SPACE 3) that some ranges touch, each once, in the order of first touch. -/
def rangeSectors (rs : List (Nat × Nat)) : List Nat :=
  (rs.flatMap (fun r => (cutAt 512 r.1 r.2).map (fun u => u.1 / 512))).foldl (fun l a => if l.contains a then l else l ++ [a]) []

/-- Sectors that follow one another within a page, as first sector and count. -/
def sectorRuns : List Nat → List (Nat × Nat)
  | [] => []
  | a :: l => match sectorRuns l with
    | (b, n) :: r => if b = a + 1 ∧ b % 4096 ≠ 0 then (a, n + 1) :: r else (a, 1) :: (b, n) :: r
    | [] => [(a, 1)]

/-- What a read of runs of sectors asks the host for (R214, R215): the sectors and their records, cut where a request must end (R295, R301).
(log 22: DEDUCED.) -/
def runPieces (s : State) (p : Nat) (runs : List (Nat × Nat)) : List HostPiece :=
  runs.flatMap (fun x => match pageOf s p 3 (x.1 * 512) with
    | none => []
    | some e =>
      let sec := x.1 % 4096
      let a := ptHaddr e + 512 * sec
      let t := ptTag e + 32 * sec
      (cutAt (maxRead s) a (512 * x.2)).map (fun u => { addr := u.1, len := u.2, dev := (x.1 + (u.1 - a) / 512) * 512, data := true }) ++
        (cutAt (maxRead s) t (32 * x.2)).map (fun u => { addr := u.1, len := u.2, dev := (x.1 + (u.1 - t) / 32) * 512, data := false }))
/-- The same for byte ranges of SPACE 3. -/
def hostPieces (s : State) (p : Nat) (rs : List (Nat × Nat)) : List HostPiece := runPieces s p (sectorRuns (rangeSectors rs))

/-- The host sectors that some writes touch and do not cover whole: they are read first (R215). -/
def partSectors (ws : List (Nat × List Byte)) : List Nat := (touchedSectors ws).filter (fun a => !(coversRange ws (a * 512) 512))

/-! ### Reads by the print, the proof and the sweep (R301) -/
/-- R301: an engine of a partition asks for host memory, waits for what it asked for, and goes on (true) when it has come. A request that fails is
made again (log 134: DESIGN CHOICE). -/
def engineRead (s : State) (p e : Nat) (ps : List HostPiece) : State × Bool :=
  match tfind (getPart s p).reads e with
  | some [] => (modPart s p (fun k => { k with reads := tdel k.reads e }), true)
  | some _ => (s, false)
  | none =>
    if ps.isEmpty then (s, true)
    else
      let z := hostAsk s p (.engine p e) ps
      (modPart z.1 p (fun k => { k with reads := tset k.reads e z.2 }), false)

end Sys2Proof.Machine
end

