-- ==== Sys2Proof/Machine/HostRing.lean ====
section
/-! DEFINITION. The host write ring (R306). -/
namespace Sys2Proof.Machine

def hwrOn (k : Part) : Bool := bit (partReg k 0x88) 0
def hwrLog (k : Part) : Nat := fld (partReg k 0x88) 4 1
def hwrHead (k : Part) : Nat := fld (partReg k 0x8C) 15 0 % 2 ^ hwrLog k
def hwrTail (k : Part) : Nat := fld (partReg k 0x90) 15 0
def hwrOwner (k : Part) : Nat := fld (partReg k 0x90) 17 16
def hwrClaim (k : Part) (o : Nat) : Part := k.setReg 0x90 (setFld (partReg k 0x90) 17 16 o)
/-- Records that the ring has room for. -/
def hwrRoom (k : Part) : Nat := 2 ^ hwrLog k - 1 - (hwrTail k + 2 ^ hwrLog k - hwrHead k) % 2 ^ hwrLog k

/-- One record of 64 bytes; `body` holds bytes 0x04 on, which are written before the first word with PHASE. The HWR cause is raised when the ring
was empty. (log 14: DEDUCED.) -/
def hwrPost (s : State) (p typ : Nat) (body : List Byte) : State :=
  let k := getPart s p
  let t := hwrTail k
  let seq := k.hwrSeq + 1
  let base := k.hwrBase
  let head := [BitVec.ofNat 8 (b2n k.hwrPhase + typ * 16), 0] ++ leBytes 2 seq.toNat
  let tail := (body ++ List.replicate (60 - body.length) 0).take 60
  let t1 := (t + 1) % 2 ^ hwrLog k
  let k1 := { k.setReg 0x90 (setFld (partReg k 0x90) 15 0 t1) with hwrSeq := seq, hwrPhase := if t1 = 0 then !k.hwrPhase else k.hwrPhase }
  let s1 := hostPost (setPart s p k1) p [.hostWrite p (base + 64 * t + 4) tail, .hostWrite p (base + 64 * t) head]
  if t = hwrHead k then raisePart s1 p 10 else s1

/-- A masked write of PART_HWR_CTL (R306): a LOG2N outside 6 to 15 is refused; clearing is ignored while an owner holds the ring, the other fields are written (R363). A
ring that is enabled starts again at its first record (log 14). -/
def hwrCtlWrite (s : State) (p : Nat) (v : Word) : State :=
  let k := getPart s p
  let old := partReg k 0x88
  let new := mwApply 0x1F old v
  if bit old 0 && !(bit new 0) then setPart s p (k.setReg 0x88 (if hwrOwner k = 0 then new else setBit new 0 true))
  else if !(bit old 0) && bit new 0 then
    if fld new 4 1 < 6 then setPart s p ((k.setReg 0x88 (setBit new 0 false)).setReg 0x90 (setFld (partReg k 0x90) 31 24 0x06))
    else setPart s p { (k.setReg 0x88 new).setReg 0x90 (setFld (setFld (partReg k 0x90) 31 24 0) 15 0 0) with hwrBase := fld (partReg k 0x80) 31 12 * 2 ^ 12 + (partReg k 0x84).toNat * 2 ^ 32, hwrSeq := 0, hwrPhase := true }
  else setPart s p (k.setReg 0x88 new)

/-- PART_HWR_CTL_ENABLE (R306). -/
def execPartHwrCtlEnable (fn : Fn) (p : PartIx) (v : Word) (s : State) : Out :=
  .next (partGuard s fn p.val 0x88 (hwrCtlWrite s p.val v))

end Sys2Proof.Machine
end

