-- ==== Sys2Proof/Machine/Kernel.lean ====
section
/-! DEFINITION. The update kernel (R231 to R233): its instruction words, its scratch SRAM, its descriptors, its run. A run is held in a
state of its own, with the scratch SRAM in the place of a core's data SRAM and the kernel in the place of a firing. -/
namespace Sys2Proof.Machine

/-- The words of `li`, `vop` and `fin`. -/
def kLi (rd imm : Nat) : BitVec 64 := BitVec.ofNat 64 (0x04 * 2 ^ 58 + 0x1F * 2 ^ 48 + rd * 2 ^ 43 + imm * 2 ^ 6)
def kVop (fn d a b c rp : Nat) : BitVec 64 :=
  BitVec.ofNat 64 (0x24 * 2 ^ 58 + d * 2 ^ 44 + a * 2 ^ 40 + b * 2 ^ 36 + c * 2 ^ 32 + fn * 2 ^ 26 + rp * 2 ^ 16)
def kFin : BitVec 64 := BitVec.ofNat 64 (0x10 * 2 ^ 58 + 0x04 * 2 ^ 48)

/-- R233: KSEL 1, SGD with momentum. -/
def kernelSgd : List (BitVec 64) := [kLi 4 4, kVop 4 5 2 12 0 0, kVop 4 4 5 12 1 4, kVop 0 7 4 0 0 0, kFin]
/-- R233: the listing of AdamW, and Adam (KSEL 2) without its `mul d11`, d1 in place of d11. -/
def kernelAdam (w : Bool) : List (BitVec 64) :=
  [kLi 1 1, kLi 2 2, kLi 3 3, kLi 4 4, kLi 5 5, kLi 6 6, kVop 3 8 2 12 0 0, kVop 4 5 0 12 8 1, kVop 3 9 0 0 0 0, kVop 3 10 3 12 0 2,
   kVop 4 6 9 12 10 3, kVop 0x13 9 6 0 0 0, kVop 1 9 9 12 0 5, kVop 0x12 10 5 9 0 0] ++
  (if w then [kVop 3 11 1 12 0 6] else []) ++ [kVop 4 4 10 12 (if w then 11 else 1) 4, kVop 0 7 4 0 0 0, kFin]

/-! ### Scratch SRAM and descriptors (R231); the layout is the model's (log 24) -/
/-- Descriptor d0 to d12 of a kernel for m moments. -/
def kDesc (m n : Nat) : Desc :=
  let mk := fun (addr fmt el row ps : Nat) => BitVec.ofNat 512
    (addr + fmt * 2 ^ 64 + 2 * 2 ^ 68 + 31 * 2 ^ 72 + 31 * 2 ^ 77 + 32 * 2 ^ 96 + 32 * 2 ^ 112 + 8 * 2 ^ 176 + el * 2 ^ 192 + row * 2 ^ 224 + ps * 2 ^ 352)
  if n = 12 then mk 0xC000 1 0 0 4
  else if n > 12 then 0
  else if ((n = 2 ∨ n = 5) ∧ m = 0) ∨ ((n = 3 ∨ n = 6) ∧ m < 2) then 0
  else if n = 7 then mk 0x7000 0 2 64 0
  else mk (n * 0x1000) 1 4 128 0

/-- What a kernel run starts from: moments of the region, the unscaled gradient, the live master and moments, the live cache, the
hyperparameters; a seed and a tag that the spec does not state for a station. -/
structure KernelIn where
  m : Nat
  g : List Byte
  live : List (List Byte)
  cache : List Byte
  hp : List Word
  seed : BitVec 64
  tag : Tag

/-- R231: the scratch SRAM before the run. (log 24: DESIGN CHOICE.) -/
def kernelSram (i : KernelIn) : Mem :=
  let lv := fun n => i.live.getD n []
  [(0x0000, i.g), (0x1000, lv 0), (0x2000, lv 1), (0x3000, lv 2), (0x4000, lv 0), (0x5000, lv 1), (0x6000, lv 2), (0x7000, i.cache),
   (0xC000, i.hp.flatMap (fun w => leBytes 4 w.toNat))].foldl (fun m x => mwrites m x.1 x.2) []

/-- The core that holds the run before its first instruction: context 0, slot 0; it is core 0 of a state of its own. -/
def kernelCore (i : KernelIn) : Core :=
  let x : CtxState := { CtxState.reset with descs := (List.range 13).map (fun n => (n, kDesc i.m n)), seed := i.seed }
  { Core.reset with sram := kernelSram i, ctxs := [(0, x)], nextUid := 1, firings := [(0, freshRun 0 0 i.tag 0 [])] }

/-- The state after an instruction. -/
def outState (s : State) : Out → State
  | .next t => t
  | _ => s

def kRun (s : State) : Option Run := runOf (getCore s 0) (.slot 0)
def kTrapped (s : State) : Option Nat := (tfind (getCore s 0).traps 0).map (·.cause)
/-- A trap of the kernel. -/
def kTrap (s : State) (cause : Nat) : State :=
  match kRun s with
  | some r => takeTrap s 0 (.slot 0) r cause 0
  | none => s

/-- R231: `vop` in a kernel: a write to d0 to d3 or to d12 raises STATE; the scratch SRAM has 64 KiB. -/
def kernelVop (f : FmtV) (s : State) : State :=
  let s1 := outState s (execVop 0 (.slot 0) f s)
  let guard := match kRun s with | some r => guardOn f.g r | none => false
  if kTrapped s1 == some ILLEGAL || !guard then s1
  else if f.dD.toNat ≤ 3 || f.dD == 12 then kTrap s STATE
  else match (getCore s1 0).vq with
    | [] => s1
    | q :: _ =>
      let vs := match q.op with | .vop _ d a b c _ _ => [d, a] ++ b.toList ++ c.toList | _ => []
      if vs.any (fun v => decide ((vBounds v).2 + dSize v.d > 0x10000)) then kTrap s SRAM_RANGE
      else outState s1 (execVectorQueueStart 0 false s1)

/-- `mfs` in a kernel: PART is the station's partition; the spec states no other special register for a station (log 1).
(log 70: DEDUCED.) -/
def kernelMfs (pid : Nat) (f : FmtA) (s : State) : State :=
  let s1 := outState s (execMfs 0 (.slot 0) f s)
  match kRun s, kRun s1 with
  | some r0, some r =>
    if r.pc = r0.pc || !(guardOn f.g r0) || (kTrapped s1).isSome then s1
    else if f.rs1 = 6 then setCore s1 0 ((getCore s1 0).setRun (.slot 0) { r with s := tset r.s f.rd.toNat (w32 pid) })
    else
      let v := takeFree 32 s1
      setCore v.2 0 ((getCore v.2 0).setRun (.slot 0) { r with s := tset r.s f.rd.toNat v.1 })
  | _, _ => s1

/-- Class 0x00 (R69). -/
def kernelAlu (pid : Nat) (op : Nat) (f : FmtA) (s : State) : State :=
  let r : RunId := .slot 0
  let go := fun o => outState s o
  match op with
  | 0x00 => go (execAdd 0 r f s) | 0x01 => go (execSub 0 r f s) | 0x02 => go (execAnd 0 r f s) | 0x03 => go (execOr 0 r f s)
  | 0x04 => go (execXor 0 r f s) | 0x05 => go (execShl 0 r f s) | 0x06 => go (execShr 0 r f s) | 0x07 => go (execSra 0 r f s)
  | 0x08 => go (execMul 0 r f s) | 0x09 => go (execMulh 0 r f s) | 0x0A => go (execMulhu 0 r f s) | 0x0B => go (execMin 0 r f s)
  | 0x0C => go (execMax 0 r f s) | 0x0D => go (execMinu 0 r f s) | 0x0E => go (execMaxu 0 r f s) | 0x0F => go (execSel 0 r f s)
  | 0x10 => go (execCmpEq 0 r f s) | 0x11 => go (execCmpNe 0 r f s) | 0x12 => go (execCmpLt 0 r f s) | 0x13 => go (execCmpLtu 0 r f s)
  | 0x14 => go (execCmpGe 0 r f s) | 0x15 => go (execCmpGeu 0 r f s) | 0x16 => go (execTagYng 0 r f s) | 0x18 => go (execPand 0 r f s)
  | 0x19 => go (execPor 0 r f s) | 0x1A => go (execPxor 0 r f s) | 0x1B => go (execPnot 0 r f s) | 0x20 => kernelMfs pid f s
  | _ => kTrap s ILLEGAL

/-- Class 0x04 (R69). -/
def kernelImm (op : Nat) (f : FmtB) (s : State) : State :=
  let r : RunId := .slot 0
  let go := fun o => outState s o
  match op with
  | 0x00 => go (execAddi 0 r f s) | 0x02 => go (execAndi 0 r f s) | 0x03 => go (execOri 0 r f s) | 0x04 => go (execXori 0 r f s)
  | 0x05 => go (execShli 0 r f s) | 0x06 => go (execShri 0 r f s) | 0x07 => go (execSrai 0 r f s) | 0x08 => go (execMuli 0 r f s)
  | 0x10 => go (execCmpiEq 0 r f s) | 0x11 => go (execCmpiNe 0 r f s) | 0x12 => go (execCmpiLt 0 r f s) | 0x13 => go (execCmpiLtu 0 r f s)
  | 0x14 => go (execCmpiGe 0 r f s) | 0x15 => go (execCmpiGeu 0 r f s) | 0x1F => go (execLi 0 r f s)
  | _ => kTrap s ILLEGAL

/-- Class 0x08 (R71, R72). -/
def kernelBranch (op : Nat) (f : FmtC) (s : State) : State :=
  let r : RunId := .slot 0
  let go := fun o => outState s o
  match op with
  | 0 => go (execBr 0 r f s) | 1 => go (execJal 0 r f s) | 2 => go (execJr 0 r f s)
  | 3 => go (execLoopI 0 r f s) | 4 => go (execLoopR 0 r f s) | 5 => go (execBrk 0 r f s)
  | _ => kTrap s ILLEGAL

/-- Class 0x3C (R87, R88). -/
def kernelDebug (op : Nat) (f : FmtJ) (s : State) : State :=
  let r : RunId := .slot 0
  let go := fun o => outState s o
  match op with
  | 0 => go (execNop 0 r f s) | 1 => go (execTrap 0 r f s) | 2 => go (execBkpt 0 r f s) | 3 => go (execMark 0 r f s)
  | _ => kTrap s ILLEGAL

/-- R231: one kernel instruction. -/
def kernelInstr (pid : Nat) (w : BitVec 64) (s : State) : State :=
  if wClass w = 0x00 then kernelAlu pid (wOp w) (wFmtA w) s
  else if wClass w = 0x04 then kernelImm (wOp w) (wFmtB w) s
  else if wClass w = 0x08 then kernelBranch (wOp w) (wFmtC w) s
  else if wClass w = 0x3C then kernelDebug (wOp w) (wFmtJ w) s
  else if wClass w = 0x10 ∧ wOp w = 0x04 then outState s (execFin 0 (.slot 0) (wFmtE w) s)
  else if wClass w = 0x24 ∧ wOp w = 0x00 then kernelVop (wFmtV w) s
  else kTrap s ILLEGAL

/-- How a kernel run ends: with what it leaves in scratch, with a trap, or not yet. -/
inductive KernelEnd
  | done (scratch : Mem)
  | trap (cause : Nat)
  | running

/-- The run, instruction by instruction, and the state that holds it. Past the 256 words of the image it raises PC_RANGE (R71; log 25). -/
def kernelGo (pid : Nat) (words : Nat → BitVec 64) : Nat → State → KernelEnd × State
  | 0, s => (.running, s)
  | n + 1, s =>
    match kTrapped s with
    | some c => (.trap c, s)
    | none => match kRun s with
      | none => (.running, s)
      | some r =>
        if r.phase = .fin then (.done (getCore s 0).sram, s)
        else kernelGo pid words n (if r.pc.toNat > 255 then kTrap s PC_RANGE else kernelInstr pid (words r.pc.toNat) s)

/-- Instructions of a run that one command takes; the next command goes on (log 25). (log 25: DESIGN CHOICE.) -/
def kernelBound : Nat := 256

end Sys2Proof.Machine
end

