-- ==== Sys2Proof/Machine/Codec.lean ====
section
/-! DEFINITION. The compressed container (R200 to R204): its encoder and its decoder. -/
namespace Sys2Proof.Machine

/-! ### Elements -/
/-- Bits of the mantissa and of the exponent field. -/
def manBits (f32 : Bool) : Nat := if f32 then 23 else 10
def expBits (f32 : Bool) : Nat := if f32 then 8 else 5
def elSize (f32 : Bool) : Nat := if f32 then 4 else 2
def elSign (f32 : Bool) (w : Word) : Bool := bit w (if f32 then 31 else 15)
def elExp (f32 : Bool) (w : Word) : Nat := fld w (manBits f32 + expBits f32 - 1) (manBits f32)
def elMan (f32 : Bool) (w : Word) : Nat := fld w (manBits f32 - 1) 0
/-- An element that is ±0. -/
def elZero (f32 : Bool) (w : Word) : Bool := elExp f32 w == 0 && elMan f32 w == 0

/-- R203: the most significant mantissa bit of a signalling NaN is set. -/
def quieten (f32 : Bool) (w : Word) : Word :=
  if elExp f32 w = 2 ^ expBits f32 - 1 ∧ elMan f32 w ≠ 0 then setBit w (manBits f32 - 1) true else w

/-- A bit plane: bit k mod 8 of byte k / 8. -/
def bitPlane (l : List Bool) : List Byte := leBytes ((l.length + 7) / 8) (l.foldr (fun b a => b2n b + 2 * a) 0)

/-- Fields of m bits packed from bit 0 of the first byte upward. -/
def packFields (m : Nat) (l : List Nat) : List Byte := leBytes ((l.length * m + 7) / 8) (l.foldr (fun v a => v + 2 ^ m * a) 0)

/-! ### The exponent plane (R202, R203) -/
/-- The deltas of exponent fields. -/
def deltas (w : Nat) : Nat → List Nat → List Nat
  | _, [] => []
  | p, x :: r => (x + 2 ^ w - p) % 2 ^ w :: deltas w x r

/-- The symbols of deltas: `run` zero deltas are waiting. -/
def symbols (w : Nat) : Nat → List Nat → List Byte
  | run, [] => if run = 0 then [] else [BitVec.ofNat 8 (run - 1)]
  | run, d :: r =>
    if d = 0 then (if run = 63 then 63#8 :: symbols w 0 r else symbols w (run + 1) r)
    else
      let v := signed w d
      let head : List Byte := if run = 0 then [] else [BitVec.ofNat 8 (run - 1)]
      let sym : List Byte := if -32 ≤ v ∧ v ≤ 31 then [BitVec.ofInt 8 (v + 0x60)] else [0x80#8, BitVec.ofNat 8 d]
      head ++ sym ++ symbols w 0 r

/-- The deltas that symbols give, none where a symbol is of the kind never written. -/
def unsymbols (f32 : Bool) : List Byte → Option (List Nat)
  | [] => some []
  | b :: r =>
    let w := expBits f32
    let n := b.toNat
    if n < 0x40 then (unsymbols f32 r).map (fun l => List.replicate (n + 1) 0 ++ l)
    else if n < 0x80 ∧ n ≠ 0x60 then (unsymbols f32 r).map (fun l => (n + 2 ^ w * 3 - 0x60) % 2 ^ w :: l)
    else if n = 0x80 ∧ f32 then
      match r with
      | [] => none
      | d :: r2 => (unsymbols f32 r2).map (fun l => d.toNat :: l)
    else none

/-- The exponent fields that deltas give. -/
def undeltas (w : Nat) : Nat → List Nat → List Nat
  | _, [] => []
  | p, d :: r => (p + d) % 2 ^ w :: undeltas w ((p + d) % 2 ^ w) r

/-! ### The container -/
/-- Bits [63:0] of the header (R201). -/
def headLow (coded f32 : Bool) (rows cols len nz lenE : Nat) : Nat :=
  b2n coded + b2n f32 * 2 ^ 2 + (rows - 1) * 2 ^ 3 + (cols - 1) * 2 ^ 8 + len * 2 ^ 16 + nz * 2 ^ 32 + lenE * 2 ^ 48

def crcOf (low : Nat) (payload : List Byte) : Word := crc32c (leBytes 8 low ++ payload)

/-- R203: the container of a tile, elements row-major. -/
def encodeTile (f32 : Bool) (rows cols : Nat) (els : List Word) : List Byte :=
  let n := els.length
  let nzs := els.filter (fun w => !(elZero f32 w))
  let ex := symbols (expBits f32) 0 (deltas (expBits f32) 0 (nzs.map (elExp f32)))
  let coded := bitPlane (els.map (elSign f32)) ++ bitPlane (els.map (elZero f32)) ++ ex ++ packFields (manBits f32) (nzs.map (elMan f32))
  let raw := els.flatMap (fun w => leBytes (elSize f32) w.toNat)
  let c := decide (coded.length < n * elSize f32)
  let payload := if c then coded else raw
  let low := headLow c f32 rows cols payload.length (if c then nzs.length else 0) (if c then ex.length else 0)
  leBytes 8 low ++ leBytes 4 (crcOf low payload).toNat ++ List.replicate 52 0 ++ payload

/-- LEN of a header (R201). -/
def headLen (h : List Byte) : Nat := fld (BitVec.ofNat 512 (leNat h)) 28 16

/-- The elements of a coded payload, given its planes' bits. -/
def undoTile (f32 : Bool) : List Bool → List Bool → List Nat → List Nat → List Word
  | s :: ss, z :: zs, es, ms =>
    let sg := b2n s * 2 ^ (manBits f32 + expBits f32)
    if z then w32 sg :: undoTile f32 ss zs es ms
    else w32 (sg + es.headD 0 * 2 ^ manBits f32 + ms.headD 0) :: undoTile f32 ss zs es.tail ms.tail
  | _, _, _, _ => []

/-- The first n bits of a plane. -/
def planeBits (n : Nat) (l : List Byte) : List Bool :=
  let v := leNat l
  (List.range n).map (fun k => (v >>> k) % 2 == 1)

/-- R204: the elements of a container, or the DETAIL of its rejection: 2 for a check of the fields and planes, 1 for the CRC, which is
checked last. (log 95: DEDUCED.) -/
def decodeTile (f32 : Bool) (rows cols : Nat) (head payload : List Byte) : Except Nat (List Word) :=
  let h : BitVec 512 := BitVec.ofNat 512 (leNat head)
  let n := rows * cols
  let m := manBits f32
  let coded := fld h 1 0 == 1
  let nz := fld h 42 32
  let lenE := fld h 63 48
  let pl := (n + 7) / 8
  let sum := if coded then 2 * pl + lenE + (nz * m + 7) / 8 else n * elSize f32
  let zs := planeBits n ((payload.drop pl).take pl)
  let ds := unsymbols f32 ((payload.drop (2 * pl)).take lenE)
  let bad :=
    fld h 15 13 != 0 || fld h 31 29 != 0 || fld h 47 43 != 0 || fld h 511 96 != 0 || fld h 1 0 ≥ 2 ||
    (!coded && (nz != 0 || lenE != 0)) || bit h 2 != f32 || fld h 7 3 + 1 != rows || fld h 12 8 + 1 != cols || headLen head != sum ||
    (coded && ((zs.filter (fun z => z)).length + nz != n || ds.isNone || ds.any (fun l => l.length != nz)))
  if bad then .error 2
  else if fld h 95 64 ≠ (crcOf (fld h 63 0) payload).toNat then .error 1
  else if coded then
    let ms := leNat (payload.drop (2 * pl + lenE))
    .ok (undoTile f32 (planeBits n (payload.take pl)) zs (undeltas (expBits f32) 0 (ds.getD []))
      ((List.range nz).map (fun i => (ms >>> (i * m)) % 2 ^ m)))
  else .ok ((List.range n).map (fun k => w32 (leNat ((payload.drop (k * elSize f32)).take (elSize f32)))))

end Sys2Proof.Machine
end

