-- ==== Sys2Proof/Machine/Sync.lean ====
section
/-! DEFINITION. Synchronisation objects (R253 to R266): their operations, waiters, cancels and registers. -/
namespace Sys2Proof.Machine

/-! ### Objects -/
def unitSync (s : State) : SyncUnit → SyncState
  | .hive cl => (getCl s cl.val).hive
  | .port l => (getLnk s l.val).sync
def setUnitSync (s : State) (u : SyncUnit) (y : SyncState) : State :=
  match u with
  | .hive cl => setCl s cl.val { getCl s cl.val with hive := y }
  | .port l => setLnk s l.val { getLnk s l.val with sync := y }

def unitReg (s : State) (u : SyncUnit) (off : Nat) : Word :=
  match u with
  | .hive cl => clReg (getCl s cl.val) off
  | .port l => lnkReg (getLnk s l.val) off
def setUnitReg (s : State) (u : SyncUnit) (off : Nat) (w : Word) : State :=
  match u with
  | .hive cl => setCl s cl.val ((getCl s cl.val).setReg off w)
  | .port l => setLnk s l.val ((getLnk s l.val).setReg off w)

def objUnit : ObjRef → SyncUnit
  | .hive cl _ => .hive cl
  | .port l _ => .port l
def objValOff : ObjRef → Nat
  | .hive _ n => 0x1000 + n.val * 8
  | .port _ n => 0x2000 + n.val * 0x10
def objCfgOff : ObjRef → Nat
  | .hive _ n => 0x1004 + n.val * 8
  | .port _ n => 0x2004 + n.val * 0x10
/-- Offsets of the STAT and STL registers (R266). -/
def unitStatOff : SyncUnit → Nat | .hive _ => 0x1400 | .port _ => 0x2400
def unitStlOff : SyncUnit → Nat | .hive _ => 0x1404 | .port _ => 0x2404
/-- Waiter entries (R253). -/
def unitWaiters : SyncUnit → Nat | .hive _ => 256 | .port _ => 64
def unitNode : SyncUnit → Node | .hive cl => .cluster cl.val | .port l => .lp l.val

def objCfg (s : State) (o : ObjRef) : Word := unitReg s (objUnit o) (objCfgOff o)
def objVal (s : State) (o : ObjRef) : Word := unitReg s (objUnit o) (objValOff o)
def setObjVal (s : State) (o : ObjRef) (w : Word) : State := setUnitReg s (objUnit o) (objValOff o) w
def cfgOn (w : Word) : Bool := bit w 0
def cfgMode (w : Word) : Nat := fld w 2 1
def cfgPid (w : Word) : Nat := fld w 5 3

/-- The owner of an object, or its last owner. -/
def objOwner (s : State) (o : ObjRef) : Nat :=
  lastOwner (match objUnit o with | .hive cl => (getCl s cl.val).regs | .port l => (getLnk s l.val).regs) (objCfgOff o) (cfgPid (objCfg s o))

/-- R254: the firewall on an operation, in the order of R140. PID 0xF passes ownership. -/
def objRefusal (s : State) (pid : Nat) (o : ObjRef) : Option Nat :=
  let w := objCfg s o
  firstCode (pidDown s pid || inPass s (objOwner s o)) (!cfgOn w) (pid != 0xF && pid != cfgPid w) false

/-! ### Answers -/
def opCode : SyncOp → Nat | .faa => 0 | .ld => 1 | .st => 2 | .wait => 3 | .bar => 4

/-- A payload of 240 bytes that starts with some bytes. -/
def padFlit (l : List Byte) : List Byte := l ++ List.replicate (240 - l.length) 0

/-- R279: the SYNC_RSP of a request that came over a link. -/
def syncRspItem (tid : Nat) (a : Answer) : LinkItem :=
  let st := match a with | .val _ => 0 | .refused c => c
  let v := match a with | .val w => w | .refused _ => 0
  { vc := true, typ := 5, info := BitVec.ofNat 48 (tid % 65536), payload := padFlit (leBytes 4 st ++ leBytes 4 v.toNat) }

/-- An answer is in at its requester. -/
def takeAnswer (s : State) (src : Requester) (op : SyncOp) (tid : Nat) (a : Answer) : State :=
  match src with
  | .core c uid => let k := getCore s c; setCore s c { k with syncRsps := k.syncRsps ++ [{ uid := uid, op := op, tid := tid, ans := a }] }
  | .ring cl ch =>
    let k := getCl s cl
    let h := getChan k ch
    match h.job with
    | some j => setCl s cl (setChan k ch { h with job := some { j with syn := some a } })
    | none => s
  | .hcc h => { s with hub := { s.hub with hccRsps := s.hub.hccRsps ++ [(h, tid, a)] } }
  | .reg _ => s
  | .far l => let k := getLnk s l; setLnk s l { k with txq := k.txq ++ [syncRspItem tid a] }

/-- The node of a requester. -/
def srcNode : Requester → Node
  | .core c _ => .core c
  | .ring cl _ => .cluster cl
  | .hcc h => .hub (16 + h)
  | .reg _ => .hub 0
  | .far l => .lp l

/-- An answer starts back to its requester: within the cluster, or to the port that sent the request, it is there at once; else it crosses
the mesh (R260). A posted store answers only with a refusal (R255, R258). -/
def answerReq (s : State) (q : SyncReq) (a : Answer) : State :=
  match q.op, a with
  | .st, .val _ => s
  | _, _ =>
    if q.near || srcNode q.src == unitNode (objUnit q.obj) then takeAnswer s q.src q.op q.tid a
    else match q.src with
      | .reg _ => s
      | _ => { s with mesh := s.mesh ++ [{ pid := q.pid, src := unitNode (objUnit q.obj), dst := srcNode q.src, tid := q.tid, body := .syncRsp q.src q.op q.tid a }] }

/-! ### Waiters (R255) -/
/-- R255: unsigned comparison. -/
def syncHolds (v : Word) (cond : BitVec 3) (arg : Word) : Bool :=
  if cond = 0 then v == arg else if cond = 1 then v != arg else if cond = 2 then decide (arg.toNat ≤ v.toNat) else decide (v.toNat < arg.toNat)

/-- A waiter is to be released. -/
def releases (v : Word) (w : Waiter) : Bool :=
  match w.q.op with
  | .wait => syncHolds v w.q.cond w.q.arg
  | .bar => fld v 31 16 != w.gen
  | _ => false

/-- After a change of an object's value: its waiters that are to be released go, in order of entry, each answered 1. -/
def releaseWaiters (s : State) (o : ObjRef) : State :=
  let y := unitSync s (objUnit o)
  let v := objVal s o
  let go := y.waiters.filter (fun w => w.q.obj == o && releases v w)
  go.foldl (fun s w => answerReq s w.q (.val 1)) (setUnitSync s (objUnit o) { y with waiters := y.waiters.filter (fun w => !(w.q.obj == o && releases v w)) })

def enterWaiter (s : State) (q : SyncReq) (gen : Nat) : State :=
  let y := unitSync s (objUnit q.obj)
  setUnitSync s (objUnit q.obj) { y with waiters := y.waiters ++ [{ q := q, gen := gen }] }

/-- The request needs a waiter entry (R262). -/
def needsWaiter (s : State) (q : SyncReq) : Bool :=
  let v := objVal s q.obj
  match q.op with
  | .wait => !(syncHolds v q.cond q.arg)
  | .bar => decide (fld v 15 0 + 1 < fld q.arg 15 0)
  | _ => false

/-- R255: the effect of an operation at its object. -/
def applySync (s : State) (q : SyncReq) : State :=
  let v := objVal s q.obj
  match q.op with
  | .faa => releaseWaiters (answerReq (setObjVal s q.obj (v + q.arg)) q (.val v)) q.obj
  | .ld => answerReq s q (.val v)
  | .st => releaseWaiters (setObjVal s q.obj q.arg) q.obj
  | .wait => if syncHolds v q.cond q.arg then answerReq s q (.val 1) else enterWaiter s q 0
  | .bar =>
    let g := fld v 31 16
    let a := fld v 15 0 + 1
    if a ≥ fld q.arg 15 0 then
      releaseWaiters (answerReq (setObjVal s q.obj (w32 ((g + 1) % 65536 * 65536))) q (.val 1)) q.obj
    else releaseWaiters (enterWaiter (setObjVal s q.obj (w32 (g * 65536 + a))) q g) q.obj

/-! ### Forwarding over a link (R263, R265) -/
/-- R279: the SYNC_REQ of an operation that a proxy object forwards: with MODE PROXY the object's own number, with PROXY_HIVE the
name that PO_TGTn holds (DEDUCED, log 20). `tid` is the port's own, so that answers to different requesters stay apart. -/
def syncReqItem (s : State) (q : SyncReq) (l : LpIx) (n : Fin 64) (op tid : Nat) : LinkItem :=
  let mode := cfgMode (objCfg s q.obj)
  let o := if mode = 2 then (lnkReg (getLnk s l.val) (0x2008 + n.val * 0x10)).toNat else n.val
  { vc := false, typ := 4, info := BitVec.ofNat 48 (tid % 65536),
    payload := padFlit (leBytes 1 op ++ leBytes 1 q.cond.toNat ++ leBytes 2 mode ++ leBytes 4 o ++ leBytes 4 q.arg.toNat) }

def lnkActive (k : Lnk) : Bool := fld (lnkReg k 0x8) 3 0 == 6
/-- The port whose lanes carry the traffic of a port's block: its alternate while that serves it, be it in RETRAIN (R290; log 34). -/
def lanesOf (s : State) (b : Nat) : Nat :=
  ((List.range 16).find? (fun a => let k := getLnk s a; a != b && bit (lnkReg k 0x8) 11 && fld (lnkReg k 0x4) 19 16 == b)).getD b
/-- A port is trained: the lanes that carry its traffic are ACTIVE (R286, R290). -/
def lnkTrained (s : State) (l : Nat) : Bool := lnkActive (getLnk s (lanesOf s l))
/-- The partition of a port's traffic is in the pass at the far end (R293). -/
def peerScrub (s : State) (l : Nat) : Bool := bit (lnkReg (getLnk s (lanesOf s l)) 0x8) 12

/-- A proxy object forwards an operation; while the peer scrubs it answers PARTITION_UNAVAILABLE. -/
def forwardSync (s : State) (q : SyncReq) (l : LpIx) (n : Fin 64) : State :=
  let k := getLnk s l.val
  if peerScrub s l.val then answerReq s q (.refused PARTITION_UNAVAILABLE)
  else setLnk s l.val { k with txq := k.txq ++ [syncReqItem s q l n (opCode q.op) k.nextTid], fwd := tset k.fwd k.nextTid q, nextTid := (k.nextTid + 1) % 65536 }

/-! ### Order of operations (R256, R257) -/
/-- R257: an earlier roller store of the run has not written its destination. -/
def storesPending (s : State) (q : SyncReq) : Bool :=
  match q.src with
  | .core c uid =>
    let k := getCore s c
    k.rq.any (fun r => r.2.any (fun x => x.o.uid == uid && x.op == .st && decide (x.o.seq < q.seq))) ||
    (getCl s (c / 32)).chans.any (fun h => h.2.job.any (fun j => j.core == some c && j.o.uid == uid && j.op == .st && decide (j.o.seq < q.seq)))
  | _ => false

/-- SRC of a requester of the second group (R256). -/
def srcCode : Requester → Nat
  | .core c _ => placeCore c
  | .ring cl _ => placeCl cl
  | .hcc h => nodeCode (.hub (16 + h))
  | .reg _ => nodeCode (.hub 0)
  | .far l => l

/-- The rank of a requester: cores first, by index; then the others by SRC. -/
def srcRank : Requester → Nat
  | .core c _ => c
  | r => 65536 + srcCode r

/-- The request of lowest rank, the first to have arrived among equals. -/
def firstReq : List SyncReq → Option SyncReq
  | [] => none
  | q :: qs => match firstReq qs with
    | none => some q
    | some r => if srcRank r.src < srcRank q.src then some r else some q

/-- Two requests come from one requester. -/
def sameSource : Requester → Requester → Bool
  | .core c _, .core d _ => c == d
  | a, b => a == b

/-- R256, R257: the requests that can take effect: none that waits for its run's stores, and none behind such a one, or behind one that is held
(R262), of the same requester on the same object. -/
def inTurn (s : State) : List SyncReq → List SyncReq → List SyncReq
  | _, [] => []
  | held, q :: qs =>
    if storesPending s q then inTurn s (q :: held) qs
    else if held.any (fun h => sameSource h.src q.src && h.obj == q.obj) then inTurn s held qs
    else q :: inTurn s held qs

/-- One operation takes effect, is forwarded, is held, or is refused (R254, R262, R263). -/
def takeSync (s : State) (u : SyncUnit) (q : SyncReq) : State :=
  match objRefusal s q.pid q.obj with
  | some code => answerReq (fwRefuse s (unitNode u) q.pid 4 code (srcCode q.src) (objValOff q.obj)) q (.refused code)
  | none =>
    let fwd := match q.obj with
      | .port l n => if cfgMode (objCfg s q.obj) = 0 then none else some (l, n)
      | .hive _ _ => none
    match fwd with
    | some (l, n) => forwardSync s q l n
    | none =>
      let y := unitSync s u
      if needsWaiter s q && decide (y.waiters.length ≥ unitWaiters u) then
        setUnitReg (setUnitSync s u { y with held := y.held ++ [q] }) u (unitStlOff u) (unitReg s u (unitStlOff u) + 1)
      else applySync s q

/-- SYNC_OPERATION (R255, R256, R262): once an entry is free the first request that is held, else the next request by R256. -/
def execSyncOperation (u : SyncUnit) (s : State) : Out := running s <|
  let y := unitSync s u
  match y.held.find? (fun _ => decide (y.waiters.length < unitWaiters u)) with
  | some q => .next (takeSync (setUnitSync s u { y with held := y.held.erase q }) u q)
  | none =>
    match firstReq (inTurn s y.held y.arrived) with
    | some q =>
      let s1 := setUnitSync s u { y with arrived := y.arrived.erase q }
      let s2 := if y.held.isEmpty then s1 else setUnitReg s1 u (unitStlOff u) (unitReg s1 u (unitStlOff u) + 1)
      .next (takeSync s2 u q)
    | none => .next (if y.held.isEmpty then s else setUnitReg s u (unitStlOff u) (unitReg s u (unitStlOff u) + 1))

/-- R260, R263: a cancel follows the operation that a proxy has forwarded. -/
def cancelForwarded (s : State) (u : SyncUnit) (src : Requester) (tid : Nat) : Option State :=
  match u with
  | .hive _ => none
  | .port l =>
    let k := getLnk s l.val
    match k.fwd.find? (fun e => e.2.src == src && e.2.tid == tid) with
    | some (t, q) => match q.obj with
      | .port _ n => some (setLnk s l.val { k with fwd := tdel k.fwd t, txq := k.txq ++ [syncReqItem s q l n 5 t] })
      | .hive _ _ => none
    | none => none

/-- SYNC_CANCEL (R260, R262): the waiter or the held request goes; if it has been released, a late release is counted. A cancel
follows its request (R139), so it waits while the request has not yet been taken. -/
def execSyncCancel (u : SyncUnit) (s : State) : Out := running s <|
  let y := unitSync s u
  match y.cancels with
  | [] => .next s
  | (src, tid) :: cs =>
    let hit := fun (q : SyncReq) => q.src == src && q.tid == tid
    if y.arrived.any hit then .next s
    else
      let s1 := setUnitSync s u { y with cancels := cs, waiters := y.waiters.filter (fun w => !(hit w.q)), held := y.held.filter (fun q => !(hit q)) }
      let w := unitReg s u (unitStatOff u)
      if y.waiters.any (fun w => hit w.q) || y.held.any hit then .next s1
      else .next ((cancelForwarded s1 u src tid).getD (setUnitReg s1 u (unitStatOff u) (setFld w 31 16 (fld w 31 16 + 1))))

/-! ### HV_CFGn, PO_CFGn, HV_VALn, PO_VALn (R254, R256, R266) -/
/-- R266, R382: the check of an ENABLE; the lowest code where several apply (R366). -/
def objCheck (s : State) (o : ObjRef) (w : Word) : Nat :=
  match o with
  | .hive _ _ => if cfgMode w ≠ 0 then 0x06 else 0
  | .port l n =>
    let t := lnkReg (getLnk s l.val) (0x2008 + n.val * 0x10)
    if cfgMode w = 3 ∨ (cfgMode w = 2 ∧ (fld t 7 0 ≥ 128 ∨ fld t 15 8 ≥ 160)) then 0x06
    else if cfgMode w ≠ 0 ∧ lnkTrained s l.val = false then 0x08 else if !locked s (.lp l.val) then 0x10 else 0

/-- Every waiter and held request of an object is answered with a refusal (R254). -/
def dropWaiters (s : State) (o : ObjRef) (code : Nat) : State :=
  let u := objUnit o
  let y := unitSync s u
  let gone := (y.waiters.filter (fun w => w.q.obj == o)).map (·.q) ++ y.held.filter (fun q => q.obj == o)
  gone.foldl (fun s q => answerReq s q (.refused code))
    (setUnitSync s u { y with waiters := y.waiters.filter (fun w => w.q.obj != o), held := y.held.filter (fun q => q.obj != o) })

/-- A masked write of a CFG register (R254, R363, R366). A MODE that is not 0 is refused at a hive and not stored (R266). (log 94: DEDUCED.) -/
def objCfgWrite (s : State) (o : ObjRef) (pid : Nat) (v : Word) : State :=
  let u := objUnit o
  let off := objCfgOff o
  let old := objCfg s o
  let want := mwApply 7 old v
  let badHive := (match o with | .hive _ _ => cfgMode want != 0 | .port _ _ => false)
  let new := if badHive then setFld want 2 1 0 else want
  if badHive && cfgOn new then
    let s1 := setUnitReg s u off (setFld (setBit old 0 false) 13 6 0x06)
    if cfgOn old then dropWaiters s1 o NOT_MAPPED else s1
  else if cfgOn old && !cfgOn new then dropWaiters (setUnitReg s u off new) o NOT_MAPPED
  else if !cfgOn old && cfgOn new then
    let c := objCheck s o new
    if c = 0 then
      let y := unitSync s u
      setObjVal (setUnitReg (setUnitSync s u { y with waiters := y.waiters.filter (fun w => w.q.obj != o) }) u off
        (setFld (setFld new 13 6 0) 5 3 pid)) o 0
    else setUnitReg s u off (setFld (setBit new 0 false) 13 6 c)
  else setUnitReg s u off new

/-- The firewall in front of a CFG register (R140, R141, R254). -/
def objCfgCheck (s : State) (o : ObjRef) (v : Word) (pid : Nat) : Option Nat :=
  let w := objCfg s o
  ownCheck s pid (objOwner s o) (cfgOn w) (pid == 0xF && mwStaysOn w v)

/-- R263: a proxy object, whose value reads 0 and ignores writes. -/
def isProxy (s : State) (o : ObjRef) : Bool :=
  match o with
  | .port _ _ => cfgMode (objCfg s o) != 0
  | .hive _ _ => false

/-- The requests that have arrived for an object and are in their turn take effect, in the order of R256. -/
def arrivedFirst (u : SyncUnit) (o : ObjRef) : Nat → State → State
  | 0, s => s
  | n + 1, s =>
    let y := unitSync s u
    match firstReq ((inTurn s y.held y.arrived).filter (fun q => q.obj == o)) with
    | some q => arrivedFirst u o n (takeSync (setUnitSync s u { y with arrived := y.arrived.erase q }) u q)
    | none => s

/-- R139: the sync operations that a host-class core has sent to a unit come there before its later accesses, and take effect before them. -/
def ownSyncsFirst (s : State) (u : SyncUnit) : Fn → State
  | .hcc h =>
    let mine := fun (q : SyncReq) => q.src == .hcc h.val && objUnit q.obj == u
    let sent := fun (p : Packet) => match p.body with | .sync q => if mine q then some q else none | _ => none
    let y := unitSync s u
    let s1 := { setUnitSync s u { y with arrived := y.arrived.filter (fun q => !(mine q)) } with mesh := s.mesh.filter (fun p => (sent p).isNone) }
    (y.arrived.filter mine ++ s.mesh.filterMap sent).foldl (fun t q => takeSync t u q) s1
  | _ => s

/-- R256, R263: a register write of a value is a store of the second group; a proxy's value ignores writes. It takes effect at once, after the
operations that have arrived before it; that of a host-class core after its earlier operations (R139) and after the stores that it issued
before are written back (R190). (log 135: DEDUCED.) -/
def objValWrite (s : State) (o : ObjRef) (fn : Fn) (pid : Nat) (v : Word) : State :=
  if isProxy s o then s
  else
    let u := objUnit o
    let src : Requester := match fn with | .hcc h => .hcc h.val | _ => .reg fn
    let s1 := ownSyncsFirst (match fn with | .hcc h => writeBack s h.val (fun _ => true) | _ => s) u fn
    takeSync (arrivedFirst u o (unitSync s1 u).arrived.length s1) u
      { src := src, pid := pid, op := .st, obj := o, arg := v, cond := 0, tid := 0, seq := 0, near := false }

/-- A masked write of a CFG register by a function. -/
def objCfgBy (s : State) (fn : Fn) (o : ObjRef) (pid : Nat) (v : Word) : State := objCfgWrite (ownSyncsFirst s (objUnit o) fn) o pid v

/-- HV_CFG_ENABLE (R254). -/
def execHvCfgEnable (fn : Fn) (o : ObjRef) (v : Word) (s : State) : Out :=
  .next (guarded s fn (unitNode (objUnit o)) (objCfgOff o) (objCfgCheck s o v) (fun pid => objCfgBy s fn o pid v))

/-- HV_CFG_DISABLE (R254). -/
def execHvCfgDisable (fn : Fn) (o : ObjRef) (v : Word) (s : State) : Out :=
  .next (guarded s fn (unitNode (objUnit o)) (objCfgOff o) (objCfgCheck s o v) (fun pid => objCfgBy s fn o pid v))

/-- HV_VALN (R256). -/
def execHvValn (fn : Fn) (o : ObjRef) (v : Word) (s : State) : Out :=
  .next (guarded s fn (unitNode (objUnit o)) (objValOff o) (fun pid => objRefusal s pid o) (fun pid => objValWrite s o fn pid v))

end Sys2Proof.Machine
end

