-- ==== Sys2Proof/Machine/Roller.lean ====
section
/-! DEFINITION. The roller (R205 to R212, R410): requests and ring entries, what they move, how they end. -/
namespace Sys2Proof.Machine

/-! ### Ranges -/
/-- The address of the container, or parameter record, of an outer index (R200, R223). -/
def outerAddr (v : View) (o : List Int) : Int := vAddr v (0 :: 0 :: o)

/-- The byte ranges that a descriptor may touch below the core. -/
def tierRanges (v : View) : List (Nat × Nat) :=
  if dComp v.d then (walkOuter v.d).map (fun o => ((outerAddr v o).toNat, 64 + dTR v.d * dTC v.d * dSize v.d))
  else if dParam v.d then (walkOuter v.d).map (fun o => ((outerAddr v o).toNat, 2048))
  else vRanges v

/-- The headers of the containers at a descriptor. -/
def headRanges (v : View) : List (Nat × Nat) := (walkOuter v.d).map (fun o => ((outerAddr v o).toNat, 64))

/-- R92: some address is negative; it lies in no space. -/
def belowSpace (v : View) : Bool :=
  if dComp v.d ∨ dParam v.d then (walkOuter v.d).any (fun o => decide (outerAddr v o < 0)) else decide ((vBounds v).1 < 0)

/-- The pages of some ranges, each once. -/
def rangePages (rs : List (Nat × Nat)) : List Nat :=
  (rs.flatMap (fun r => if r.2 = 0 then [] else (List.range ((r.1 + r.2 - 1) / 2 ^ 21 - r.1 / 2 ^ 21 + 1)).map (fun i => r.1 / 2 ^ 21 + i))).foldl
    (fun l a => if l.contains a then l else l ++ [a]) []

/-! ### Failure (R211) -/
/-- The failure log: the first is recorded, later ones are counted; the partition's roller-error interrupt. -/
def logRoller (s : State) (cl ch : Nat) (j : Job) (f : RlFail) : State :=
  let k := getCl s cl
  let w0 := w32 (f.code + f.detail % 256 * 2 ^ 8 + f.tier % 4 * 2 ^ 16 + ch * 2 ^ 18 + b2n j.core.isNone * 2 ^ 20 + 2 ^ 31)
  let w1 := match j.core with | some c => w32 (placeCore c + j.o.pc.toNat * 2 ^ 16) | none => 0
  let k1 :=
    if bit (clReg k 0x1800) 31 then k.setReg 0x180C (bump 0xFFFF (clReg k 0x180C) 1)
    else ((k.setReg 0x1800 w0).setReg 0x1804 w1).setReg 0x1808 (w32 (f.page % 2 ^ 20 + f.sector % 2 ^ 12 * 2 ^ 20))
  raisePart (setCl s cl k1) j.pid 4

/-- R142: a refusal counts at the router in front of its destination; one for a page that no partition has, at the requester's own. -/
def refusalNode (s : State) (cl : Nat) (j : Job) (f : RlFail) : Node :=
  if f.tier = 1 then .cluster cl
  else match pageOf s j.pid f.tier f.addr with
    | some e => if f.tier = 2 then .mc (ptPkg e) else .hub 0
    | none => .cluster cl

/-! ### The errors of an update station (R241) -/
def stnPid (k : Mc) : Nat := fld (mcReg k 0x1004) 6 4
def U_STALE : Nat := 1
def U_DUP : Nat := 2
def U_REGION : Nat := 3
def U_POISON : Nat := 4
def U_TRAP : Nat := 5
def U_HOSTFAIL : Nat := 6

/-- The first error is logged, later ones are counted. -/
def Mc.updErr (k : Mc) (code detail addr : Nat) : Mc :=
  if bit (mcReg k 0x1058) 31 then k.setReg 0x1060 (bump 0xFFFFFFFF (mcReg k 0x1060) 1)
  else (k.setReg 0x1058 (w32 (code % 256 + detail % 256 * 2 ^ 8 + 2 ^ 31))).setReg 0x105C (w32 (addr / 2 ^ 14 % 2 ^ 25))

/-- The station stops: the error, TRAPPED, the update-error interrupt. -/
def stopStation (s : State) (m code detail addr : Nat) : State :=
  let k := getMc s m
  let k1 := k.updErr code detail addr
  raisePart (setMc s m { k1.setReg 0x1004 (setBit (mcReg k1 0x1004) 1 true) with stn := { k1.stn with work := none } }) (stnPid k) 6

/-- R244: an enabled station with a SPLIT region holds ring channel 3 of its cluster. -/
def splitRegion (s : State) (m : Nat) : Bool :=
  let k := getMc s m
  stationOn s m && (List.range 4).any (fun r => bit (mcReg k 0x1000) (4 + r) && bit (mcReg k (0x1014 + 0x10 * r)) 23)
def channelHeld (s : State) (cl ch : Nat) : Bool := ch == 3 && (List.range 16).any (fun m => mcCluster m == cl && splitRegion s m)

/-- A ring entry of a station has failed: the station stops (R241, R244). -/
def splitFail (s : State) (cl ch : Nat) (f : RlFail) : State :=
  if ch ≠ 3 then s
  else match (List.range 16).find? (fun m => mcCluster m == cl && splitRegion s m) with
    | none => s
    | some m => stopStation s m U_HOSTFAIL f.code ((getMc s m).stn.work.elim 0 (·.addr))

/-! ### The end of a ring entry (R208, R209) -/
/-- A ring's ENABLE goes to 0 where a clear of it has waited for the entry in progress. -/
def ringRest (k : Cluster) (ch : Nat) : Cluster :=
  if bit k.ringStop ch then
    let off := 0x1820 + 0x10 * ch
    { k.setReg off (setBit (tget k.ringNext ch (clReg k off)) 0 false) with ringStop := setBit k.ringStop ch false, ringNext := tdel k.ringNext ch, ringBad := setBit k.ringBad ch false }
  else k

/-- The request or entry is given up: the channel is free; a ring stops at its entry. -/
def failJob (s : State) (cl ch : Nat) (j : Job) (f : RlFail) : State :=
  let s1 := if f.code = E_REFUSED then
      fwRefuse s (refusalNode s cl j f) j.pid (b2n f.wr) f.detail (placeCl cl) f.addr else s
  let s2 := logRoller s1 cl ch j f
  let k := getCl s2 cl
  let k1 := setChan k ch { getChan k ch with job := none }
  if j.core.isNone then
    splitFail (setCl s2 cl (ringRest { k1.setReg (0x182C + 0x10 * ch) (setBit (clReg k1 (0x182C + 0x10 * ch)) 12 true) with ringBad := setBit k1.ringBad ch true } ch)) cl ch f
  else setCl s2 cl k1

/-- Who a job accesses as: the partition; for an entry of a ring that a station holds, the station (R188, R244). -/
def jobWho (s : State) (cl ch : Nat) (j : Job) : Who := { pid := j.pid, cl := cl, stn := j.core.isNone && channelHeld s cl ch }

/-! ### Taking a request (R205, R207) -/
/-- A ring entry's fields (R207). -/
structure RingEntry where
  fill : Bool
  bad : Bool
  sync : Option (Word × Word)
  irq : Bool
  src : View
  dst : View

/-- The spaces and forms of a ring entry's descriptors. -/
def ringBadDescs (fill : Bool) (a b : View) : Bool :=
  let tier := fun (d : Desc) => dSpace d != 0
  let one := fun (v : View) => dBad v.d || !(tier v.d) || compBad v.d || paramBad v.d || vRange v || rlMisaligned v
  one b || dParam b.d || (!fill && (one a || pairBad a.d b.d))

def ringEntry (bytes : List Byte) : RingEntry :=
  let e : BitVec 1536 := BitVec.ofNat 1536 (leNat bytes)
  let a := mkView (e.extractLsb' 512 512) 0 0
  let b := mkView (e.extractLsb' 1024 512) 0 0
  let op := fld e 3 0
  let name := w32 (fld e 63 32)
  { fill := op == 1, irq := bit e 5, src := a, dst := b,
    sync := if bit e 4 then some (name, w32 (fld e 95 64)) else none,
    bad := decide (op ≥ 2) || fld e 31 6 != 0 || fld e 511 96 != 0 || (bit e 4 && (objOf name).isNone) || ringBadDescs (op == 1) a b }

def ringHead (k : Cluster) (ch : Nat) : Nat := fld (clReg k (0x182C + 0x10 * ch)) 11 0
def ringLog (k : Cluster) (ch : Nat) : Nat := fld (clReg k (0x1820 + 0x10 * ch)) 4 1
def ringOn (k : Cluster) (ch : Nat) : Bool := bit (clReg k (0x1820 + 0x10 * ch)) 0
def ringTail (k : Cluster) (ch : Nat) : Nat := fld (clReg k (0x1828 + 0x10 * ch)) 11 0 % 2 ^ ringLog k ch
def ringPid (k : Cluster) (ch : Nat) : Nat := fld (clReg k (0x182C + 0x10 * ch)) 26 24
/-- R208: the ring holds an entry that can be taken. -/
def ringWork (k : Cluster) (ch : Nat) : Bool :=
  ringOn k ch && !(bit k.ringBad ch) && !(bit k.ringStop ch) && ringHead k ch != ringTail k ch

/-- R205: the next source with work: cores in ascending index, then the ring (32), after the source served last. -/
def nextSource (s : State) (cl ch : Nat) : Option Nat :=
  let k := getCl s cl
  ((List.range 33).map (fun i => ((getChan k ch).last + 1 + i) % 33)).find? (fun n =>
    if n = 32 then ringWork k ch else !(tget (getCore s (cl * 32 + n)).rq ch []).isEmpty)

def jobOf (core : Option Nat) (pid : Nat) (o : Origin) (op : RlOp) (fill : Bool) (a b : View) (sync : Option (Word × Word)) (irq : Bool) : Job :=
  { core := core, pid := pid, o := o, op := op, fill := fill, a := a, b := b, sync := sync, irq := irq, reads := [],
    body := fill || dSpace a.d == 0 || !(dComp a.d), merged := false, pages := [], tags := [], params := [],
    done := false, miss := false, synSent := false, syn := none }

/-- A ring entry's place. -/
def ringOrigin (idx : Nat) : Origin := { seq := idx, uid := 0, run := .setup, ctx := 0, pc := 0, tag := 0, layer := 0, part := 0, rank := 0, ncores := 0 }

/-- The pages of ranges in SPACE 2 and SPACE 3 go through the roller's translation cache (R198); and whether one of them missed. -/
def touchPages (k : Cluster) (pid space : Nat) (rs : List (Nat × Nat)) : Cluster × Bool :=
  if space < 2 then (k, false)
  else (rangePages rs).foldl (fun z n => ({ z.1 with xlate := touchCache 64 z.1.xlate (pid, space, n) }, z.2 || !(z.1.xlate.contains (pid, space, n)))) (k, false)

/-- R204: the payloads of the containers of a source, each rounded up to whole 32-byte flits, as their headers give their lengths. -/
def bodyRanges (s : State) (w : Who) (v : View) : List (Nat × Nat) :=
  (walkOuter v.d).map (fun o =>
    let a := (outerAddr v o).toNat
    (a + 64, match tierRead s w (dSpace v.d) a 64 with | .ok h => ceilDiv (headLen h) 32 * 32 | .error _ => 0))
/-- What a job reads first of its source: the headers of containers (R204), else all of it. Parameter records are read one by one (R225). -/
def firstRanges (j : Job) : List (Nat × Nat) :=
  if j.fill || dSpace j.a.d == 0 || dParam j.a.d then [] else if dComp j.a.d then headRanges j.a else tierRanges j.a

/-- A job reads ranges of its source: of LPDDR6 from the controllers of their pages, of host pages from the host; staging SRAM is the roller's own.
(log 23: DEDUCED.) -/
def jobRead (s : State) (cl ch : Nat) (j0 : Job) (rs : List (Nat × Nat)) : State :=
  let k := touchPages (getCl s cl) j0.pid (dSpace j0.a.d) rs
  let j := { j0 with miss := j0.miss || k.2, reads := rs }
  let put := fun (s : State) (j : Job) => let k := getCl s cl; setCl s cl (setChan k ch { getChan k ch with job := some j })
  let s0 := put (setCl s cl k.1) j
  let pages := if dSpace j.a.d == 2 then rangePages rs else []
  match pages.find? (fun p => (pageOf s j.pid 2 (p * 2 ^ 21)).isNone) with
  | some p => failJob s0 cl ch j (failAt E_REFUSED NOT_MAPPED 2 (p * 2 ^ 21))
  | none =>
    let pk := pages.map (fun p => ({ pid := j.pid, src := .cluster cl, dst := .mc ((pageOf s j.pid 2 (p * 2 ^ 21)).elim 0 ptPkg), tid := ch, body := .pageRead cl ch p } : Packet))
    let z := hostAsk { s0 with mesh := s0.mesh ++ pk } j.pid (.roller cl ch) (if dSpace j.a.d == 3 then hostPieces s j.pid rs else [])
    put z.1 { j with pages := pages, tags := z.2 }

/-- R204: once the headers of a source's containers have come, their payloads are read. -/
def askBody (s : State) (cl ch : Nat) : State :=
  match (getChan (getCl s cl) ch).job with
  | none => s
  | some j =>
    if j.body || !(j.pages.isEmpty) || !(j.tags.isEmpty) then s
    else jobRead s cl ch { j with body := true } (bodyRanges s (jobWho s cl ch j) j.a)

/-- A job starts in its channel. The pages of its destination are looked up; of containers to be written, those of their headers. -/
def startJob (s : State) (cl ch last : Nat) (j0 : Job) : State :=
  let k := touchPages (getCl s cl) j0.pid (dSpace j0.b.d) (if dComp j0.b.d then headRanges j0.b else tierRanges j0.b)
  let j := { j0 with miss := k.2 }
  let s0 := setCl s cl (setChan k.1 ch { last := last, job := some j })
  if (!j.fill && dSpace j.a.d != 0 && belowSpace j.a) || (dSpace j.b.d != 0 && belowSpace j.b) then
    failJob s0 cl ch j { failAt E_REFUSED NOT_MAPPED (if dSpace j.a.d = 0 then dSpace j.b.d else dSpace j.a.d) 0 with addr := 0 }
  else askBody (jobRead s0 cl ch j (firstRanges j)) cl ch

/-- ROLLER_REQUEST_TAKEN (R205, R207). -/
def execRollerRequestTaken (cl : ClIx) (ch : Fin 4) (s : State) : Out := running s <|
  let k := getCl s cl.val
  if (getChan k ch.val).job.isSome then .next s
  else match nextSource s cl.val ch.val with
    | none => .next s
    | some n =>
      if n = 32 then
        let idx := ringHead k ch.val
        let off := 0x182C + 0x10 * ch.val
        let e := ringEntry (mreads k.staging (fld (clReg k (0x1824 + 0x10 * ch.val)) 22 0 + 192 * idx) 192)
        let j := jobOf none (ringPid k ch.val) (ringOrigin idx) (if dSpace e.dst.d = 3 then .st else .pf) e.fill e.src e.dst e.sync e.irq
        let s1 := setCl s cl.val (k.setReg off (setBit (clReg k off) 12 false))
        if e.bad then
          let k1 := getCl s1 cl.val
          .next (failJob (setCl s1 cl.val (setChan k1 ch.val { last := 32, job := some j })) cl.val ch.val j { failAt E_ENTRY 0 0 0 with tier := dSpace e.dst.d })
        else .next (startJob s1 cl.val ch.val 32 j)
      else
        let c := cl.val * 32 + n
        let q := getCore s c
        match tget q.rq ch.val [] with
        | [] => .next s
        | r :: rs =>
          let s1 := setCore s c { q with rq := tset q.rq ch.val rs }
          let ab := if r.op = .st then (r.l, r.r) else (r.r, r.l)
          .next (startJob s1 cl.val ch.val n (jobOf (some c) r.o.part r.o r.op false ab.1 ab.2 none false))

/-! ### PARAM reads (R223 to R225) -/
/-- R224: the effective slot, from the pointer word and the commit record. -/
def effectiveSlot (h last : Word) : Nat :=
  if bit h 1 ∧ fld h 31 16 = fld last 15 0 ∧ fld last 17 16 = 1 then 1 - fld h 0 0 else fld h 0 0

/-- The commit record of a partition at a controller (R251). -/
def updLast (s : State) (m p : Nat) : Word := mcReg (getMc s m) (0x1080 + 4 * p)

/-- R225: the cache of the record's effective slot, or what fails. -/
def paramFetch (s : State) (w : Who) (a : Nat) : Except RlFail (List Byte) :=
  match pageRefusal s w.pid 2 a false, pageOf s w.pid 2 a with
  | some c, _ => .error (failAt E_REFUSED c 2 a)
  | none, none => .error (failAt E_REFUSED NOT_MAPPED 2 a)
  | none, some e =>
    if a % 0x4000 ≠ 0 then .error (failAt E_REFUSED TYPE_NOT_PERMITTED 2 a)
    else match tierRead s w 2 a 4 with
      | .error f => .error f
      | .ok h => tierRead s w 2 (a + 0x800 + 0x800 * effectiveSlot (w32 (leNat h)) (updLast s (ptPkg e) w.pid)) 2048

/-- The LPDDR6 bytes that the fetch of a record reads. -/
def paramRanges (s : State) (w : Who) (a : Nat) : List (Nat × Nat) :=
  match pageOf s w.pid 2 a, tierRead s w 2 a 4 with
  | some e, .ok h => [(a, 4), (a + 0x800 + 0x800 * effectiveSlot (w32 (leNat h)) (updLast s (ptPkg e) w.pid), 2048)]
  | _, _ => [(a, 4)]

/-- PARAM_READ (R225, R194): the next record of the channel's request; `ecc` is what the burst code finds. -/
def execParamRead (cl : ClIx) (ch : Fin 4) (ecc : Ecc) (s : State) : Out := running s <|
  let k := getCl s cl.val
  let h := getChan k ch.val
  match h.job with
  | none => .next s
  | some j =>
    if j.fill || !(dParam j.a.d) then .next s
    else match (walkOuter j.a.d)[j.params.length]? with
      | none => .next s
      | some o =>
        let w : Who := { pid := j.pid, cl := cl.val, stn := false }
        let a := (outerAddr j.a o).toNat
        let s1 := eccRead (ddLoad s (.cluster cl.val) j.pid 2 (paramRanges s w a)) j.pid (paramRanges s w a) ecc
        match paramFetch s1 w a with
        | .error f => .next (failJob s1 cl.val ch.val j f)
        | .ok b => .next (setCl s1 cl.val (setChan (getCl s1 cl.val) ch.val { h with job := some { j with params := j.params ++ [b] } }))

/-! ### Moving the bytes (R108, R199 to R206) -/
/-- The containers at a descriptor: header and payload of each, checked (R204). -/
def readContainers (s : State) (w : Who) (v : View) : List (List Int) → Except RlFail (List (List Byte × List Word))
  | [] => .ok []
  | o :: os =>
    let a := (outerAddr v o).toNat
    match tierRead s w (dSpace v.d) a 64 with
    | .error f => .error f
    | .ok h => match tierRead s w (dSpace v.d) (a + 64) (headLen h) with
      | .error f => .error f
      | .ok p => match decodeTile (dFmt v.d == 1) (dTR v.d) (dTC v.d) h p with
        | .error d => .error (failAt E_CONTAINER d (dSpace v.d) a)
        | .ok l => match readContainers s w v os with
          | .error f => .error f
          | .ok r => .ok ((h ++ p, l) :: r)

/-- The elements at some positions, read one by one. -/
def readElems (s : State) (w : Who) (v : View) : List Pos → Except RlFail (List Word)
  | [] => .ok []
  | p :: ps => match tierRead s w (dSpace v.d) (vAddr v p.i).toNat (dSize v.d) with
    | .error f => .error f
    | .ok b => match readElems s w v ps with
      | .error f => .error f
      | .ok r => .ok (w32 (leNat b) :: r)

/-- What a job moves: whole containers, or elements in walk order; and the bytes that the channel moves (R410). -/
inductive Cargo
  | boxes (l : List (List Byte))
  | elems (l : List Word) (bytes : Nat)
  deriving DecidableEq, Repr

/-- The source of a job (R207 for a fill, R108 for a copy of containers). -/
def loadCargo (s : State) (w : Who) (j : Job) : Except RlFail Cargo :=
  let n := dCount j.b.d
  if j.fill then .ok (.elems (List.replicate n 0) (n * dSize j.b.d))
  else if dParam j.a.d then .ok (.elems (j.params.flatMap (fun b => (List.range 1024).map (fun k => w32 (leNat ((b.drop (2 * k)).take 2))))) (n * 2))
  else if dSpace j.a.d = 0 then
    match j.core with
    | some c => .ok (.elems ((walkReal j.a.d).map (fun p => vGet (getCore s c).sram j.a p)) (n * dSize j.a.d))
    | none => .ok (.elems [] 0)
  else if dComp j.a.d then
    match readContainers s w j.a (walkOuter j.a.d) with
    | .error f => .error f
    | .ok l => if dComp j.b.d then .ok (.boxes (l.map (·.1))) else .ok (.elems (l.flatMap (·.2)) ((l.map (·.1.length)).sum))
  else match readElems s w j.a (walkReal j.a.d) with
    | .error f => .error f
    | .ok l => .ok (.elems l (n * dSize j.a.d))

/-- R206: the containers of elements, `k` a container. -/
def boxesOf (q f32 : Bool) (rows cols : Nat) : Nat → List Word → List (List Byte)
  | 0, _ => []
  | n + 1, l =>
    let t := l.take (rows * cols)
    encodeTile f32 rows cols (if q then t.map (quieten f32) else t) :: boxesOf q f32 rows cols n (l.drop (rows * cols))

/-- What a job stores below the core: address and bytes. Only `rl.st` quietens NaNs (R203, R207). Containers of both sides are paired as far as both
go (log 104: DESIGN CHOICE). -/
def storeList (j : Job) : Cargo → List (Nat × List Byte)
  | .boxes l => ((walkOuter j.b.d).zip l).map (fun x => ((outerAddr j.b x.1).toNat, x.2))
  | .elems l _ =>
    if dComp j.b.d then
      let os := walkOuter j.b.d
      (os.zip (boxesOf (j.op == .st && j.core.isSome) (dFmt j.b.d == 1) (dTR j.b.d) (dTC j.b.d) os.length l)).map (fun x => ((outerAddr j.b x.1).toNat, x.2))
    else ((walkReal j.b.d).zip l).map (fun x => ((vAddr j.b x.1.i).toNat, leBytes (dSize j.b.d) x.2.toNat))

def Cargo.bytes : Cargo → Nat
  | .boxes l => (l.map List.length).sum
  | .elems _ n => n

/-- The lower tier of a job: that of the side that is not core SRAM; of a prefetch, its source. -/
def jobTier (j : Job) : Desc := if j.op = .st ∧ j.core.isSome then j.b.d else if j.fill then j.b.d else if dSpace j.a.d = 0 then j.b.d else j.a.d

/-- R401: a roller request completed. -/
def traceRoller (s : State) (cl ch : Nat) (j : Job) (bytes : Nat) : State :=
  let d := jobTier j
  let at_ := match j.core with | some c => placeCore c | none => placeCl cl
  emitTrace s j.pid cl
    { TraceRec.blank with evt := 8, ctx := j.o.ctx, slot := RunId.num j.o.run, place := at_, tag := j.o.tag, pc := j.o.pc.toNat, args := [w32 (dSpace d + ch * 4 + (dTR d - 1) * 2 ^ 4 + (dTC d - 1) * 2 ^ 9 + dNdim d * 2 ^ 14), w32 bytes] }

/-- The bytes are at the destination: a core's request ends; a ring entry waits for RING_ENTRY_COMPLETE. -/
def endJob (s : State) (cl ch : Nat) (j : Job) (bytes : Nat) : State :=
  let s1 := traceRoller s cl ch j bytes
  let k := getCl s1 cl
  match j.core with
  | some c => setCore (setCl s1 cl (setChan k ch { getChan k ch with job := none })) c ((getCore s1 c).accDone j.o.seq)
  | none => setCl s1 cl (setChan k ch { getChan k ch with job := some { j with done := true } })

/-- Everything that the job reads below the core has come. -/
def jobReady (j : Job) : Bool :=
  j.pages.isEmpty && j.tags.isEmpty && j.body && !j.done && (j.fill || !(dParam j.a.d) || j.params.length == (walkOuter j.a.d).length)

/-- R218: a page that a request uses is being re-encrypted. -/
def sweepHolds (s : State) (j : Job) : Bool :=
  let held := fun (v : View) => dSpace v.d == 3 && (rangePages (tierRanges v)).any (fun n => (tfind (getPart s j.pid).reads (2 + n)).isSome)
  (!j.fill && held j.a) || held j.b

/-- R215: the host sectors that a write covers only in part are asked for. -/
def askMerge (s : State) (cl ch : Nat) (j : Job) (l : List Nat) : State :=
  let z := hostAsk s j.pid (.roller cl ch) (runPieces s j.pid (sectorRuns l))
  let k := getCl z.1 cl
  setCl z.1 cl (setChan k ch { getChan k ch with job := some { j with merged := true, tags := z.2 } })

/-- The bytes of a job go to their tier, their packets over the mesh (R398; log 113), their pages through the roller's translation cache (R198). -/
def jobStore (s : State) (cl : Nat) (w : Who) (space : Nat) (ws : List (Nat × List Byte)) : State :=
  let s1 := setCl s cl (touchPages (getCl s cl) w.pid space (ws.map (fun x => (x.1, x.2.length)))).1
  tierPut (ddStore s1 (.cluster cl) w.pid space ws) w space ws

/-- ROLLER_TRANSFER_DONE (R410, R95, R211). A write of the host tier waits until the function may send requests (R301), and for the host sectors that
it covers only in part (R215). -/
def execRollerTransferDone (cl : ClIx) (ch : Fin 4) (s : State) : Out := running s <|
  match (getChan (getCl s cl.val) ch.val).job with
  | none => .next s
  | some j =>
    if !(jobReady j) || (dSpace j.b.d == 3 && !(hostOpen s j.pid)) || sweepHolds s j then .next s
    else match j.core.bind (fun c => (earlier (getCore s c) j.o.seq).map (fun a => (c, a))) with
      | some (c, _) => .next (sramStall s c j.o.seq)
      | none =>
        let w := jobWho s cl.val ch.val j
        match loadCargo s w j with
        | .error f => .next (failJob s cl.val ch.val j f)
        | .ok cargo =>
          let ws := storeList j cargo
          if dSpace j.b.d = 0 then
            match j.core with
            | none => .next s
            | some c =>
              let k := getCore s c
              .next (endJob (setCore s c { k with sram := ws.foldl (fun m x => mwrites m x.1 x.2) k.sram }) cl.val ch.val j cargo.bytes)
          else
            let part := if dSpace j.b.d = 3 && !j.merged then partSectors ws else []
            if !(runPieces s j.pid (sectorRuns part)).isEmpty then .next (askMerge s cl.val ch.val j part)
            else match writeFail s w (dSpace j.b.d) ws with
              | some f => .next (failJob s cl.val ch.val j f)
              | none => .next (endJob (jobStore s cl.val w (dSpace j.b.d) ws) cl.val ch.val j cargo.bytes)

/-! ### Ring entries end (R208) -/
/-- The entry is complete: IRQ, HEAD, IDLE. -/
def ringFinish (s : State) (cl ch : Nat) (j : Job) : State :=
  let s1 := if j.irq then raisePart s j.pid 3 else s
  let k := getCl s1 cl
  let off := 0x182C + 0x10 * ch
  let h := (ringHead k ch + 1) % 2 ^ ringLog k ch
  let k1 := setChan k ch { getChan k ch with job := none }
  setCl s1 cl (ringRest (k1.setReg off (setBit (setFld (clReg k1 off) 11 0 h) 12 true)) ch)

/-- RING_ENTRY_COMPLETE (R208, R254): the sync operation is sent first; its answer, or a refusal, comes later. -/
def execRingEntryComplete (cl : ClIx) (ch : Fin 4) (s : State) : Out := running s <|
  let k := getCl s cl.val
  let h := getChan k ch.val
  match h.job with
  | none => .next s
  | some j =>
    if j.core.isSome || !j.done then .next s
    else match j.sync with
      | none => .next (ringFinish s cl.val ch.val j)
      | some (name, add) =>
        if !j.synSent then
          match objOf name with
          | none => .next (failJob s cl.val ch.val j (failAt E_ENTRY 0 0 0))
          | some o =>
            let near := match o with | .hive c _ => decide (c.val = cl.val) | .port _ _ => false
            let q : SyncReq := { src := .ring cl.val ch.val, pid := j.pid, op := .faa, obj := o, arg := add, cond := 0, tid := j.o.seq, seq := 0, near := near }
            .next (sendSync (setCl s cl.val (setChan k ch.val { h with job := some { j with synSent := true } })) (.cluster cl.val) q)
        else match j.syn with
          | none => .next s
          | some (.val _) => .next (ringFinish s cl.val ch.val j)
          | some (.refused c) => .next (failJob s cl.val ch.val j { failAt E_REFUSED c 0 0 with tier := 0 })

/-! ### RL_RCTLn, RL_RBASEn, RL_RTAILn (R209, R212) -/
/-- The bytes of a ring. -/
def ringSpan (k : Cluster) (ch : Nat) : Nat × Nat := (fld (clReg k (0x1824 + 0x10 * ch)) 22 0, 192 * 2 ^ ringLog k ch)

/-- R209: the check of a ring, its fields already written. -/
def ringCheck (s : State) (cl ch pid : Nat) (k : Cluster) : Nat :=
  let r := ringSpan k ch
  let lg := ringLog k ch
  if lg = 0 ∨ lg > 12 then 0x06
  else if r.1 % 64 ≠ 0 then 0x07
  else if r.1 + r.2 > 0x800000 ∨ (List.range 128).any (fun i => rangesMeet [r] [(i * 65536, 65536)] && stagingOwner s cl i != some pid) then 0x0E
  else if (List.range 4).any (fun n => n != ch && ringOn k n && rangesMeet [r] [ringSpan k n]) ∨
          (reserved s cl = true ∧ rangesMeet [r] [(0x700000, 0x100000)] = true) then 0x01
  else 0

/-- The firewall in front of a ring's registers (R141, R209, R244). -/
def ringRefusal (s : State) (cl ch : Nat) (typ : Bool) (pid : Nat) : Option Nat :=
  let k := getCl s cl
  firstCode (pidDown s pid || inPass s (lastOwner k.regs (0x182C + 0x10 * ch) (ringPid k ch))) false
    (channelHeld s cl ch || (ringOn k ch && pid != 0xF && pid != ringPid k ch)) (pid == 0xF && typ)

/-- A ring entry is in progress in its channel. -/
def ringBusy (k : Cluster) (ch : Nat) : Bool := (getChan k ch).job.any (fun j => j.core.isNone)

/-- ENABLE is cleared, then the other fields are written (R363): at once, or when the entry in progress ends (R209, R211; log 115). -/
def ringClear (k : Cluster) (ch : Nat) (new : Word) : Cluster :=
  let off := 0x1820 + 0x10 * ch
  if ringBusy k ch then { k with ringStop := setBit k.ringStop ch true, ringNext := tset k.ringNext ch new }
  else { k.setReg off (setBit new 0 false) with ringBad := setBit k.ringBad ch false }

/-- A masked write of RL_RCTLn. -/
def ringCtlWrite (s : State) (cl ch pid : Nat) (v : Word) : State :=
  let k := getCl s cl
  let off := 0x1820 + 0x10 * ch
  let st := 0x182C + 0x10 * ch
  let old := clReg k off
  let new := mwApply 0x1F old v
  if bit old 0 && !(bit new 0) then
    setCl s cl (ringClear k ch new)
  else if !(bit old 0) && bit new 0 then
    let k1 := k.setReg off new
    let c := ringCheck s cl ch pid k1
    let w := setFld (clReg k1 st) 23 16 c
    setCl s cl (if c = 0 then k1.setReg st (setFld w 26 24 pid) else (k1.setReg off (setBit new 0 false)).setReg st w)
  else setCl s cl (k.setReg off new)

def ringCtlGuard (s : State) (fn : Fn) (cl ch : Nat) (v : Word) : State :=
  let off := 0x1820 + 0x10 * ch
  guarded s fn (.cluster cl) off (ringRefusal s cl ch (mwStaysOn (clReg (getCl s cl) off) v)) (fun pid => ringCtlWrite s cl ch pid v)

/-- RL_RCTL_ENABLE (R209). -/
def execRlRctlEnable (fn : Fn) (cl : ClIx) (ch : Fin 4) (v : Word) (s : State) : Out := .next (ringCtlGuard s fn cl.val ch.val v)
/-- RL_RCTL_DISABLE (R209): the entry in progress completes. -/
def execRlRctlDisable (fn : Fn) (cl : ClIx) (ch : Fin 4) (v : Word) (s : State) : Out := .next (ringCtlGuard s fn cl.val ch.val v)

/-- R300: a doorbell writes a ring's TAIL, or PART_HWR_HEAD. A refused one is dropped and counted. -/
def tailWrite (s : State) (fn : Fn) (cl ch : Nat) (v : Word) : State :=
  let off := 0x1828 + 0x10 * ch
  guarded s fn (.cluster cl) off (ringRefusal s cl ch false) (fun _ => let k := getCl s cl; setCl s cl (k.setReg off (v &&& 0xFFF#32)))

/-! ### PCI Express completions (R301) -/
/-- The request of a tag has come back. -/
def takeTag (s : State) (t : Nat) : State := { s with hub := { s.hub with reqs := s.hub.reqs.filter (fun r => r.tag != t) } }

/-- DETAIL of a completion status (R301, R211): the PCI Express encodings of UR and CA. -/
def cplDetail : CplStatus → Nat | .ok => 0 | .ur => 1 | .ca => 4 | .poisoned => 4

/-- The sectors that a completion brings to the cipher (R397; log 130). -/
def sectorsBack (r : HostReq) : Nat := if r.data then r.len / 512 else 0

/-- The end of a request: the answer goes to what awaits it; a failure ends that. -/
def endRequest (s : State) (t : Nat) (detail : Option Nat) : State :=
  match s.hub.reqs.find? (fun r => r.tag == t && r.sent) with
  | none => s
  | some r =>
    let s1 := takeTag s t
    match r.for_ with
    | .engine p e => match tfind (getPart s1 p).reads e with
      | none => s1
      | some l =>
        if !(l.contains t) then s1
        else if detail.isSome then modPart s1 p (fun k => { k with reads := tdel k.reads e })
        else modPart (cipherCount s1 (sectorsBack r)) p (fun k => { k with reads := tset k.reads e (l.erase t) })
    | .roller cl ch =>
      let k := getCl s1 cl
      let h := getChan k ch
      match h.job with
      | none => s1
      | some j =>
        if !(j.tags.contains t) then s1
        else match detail with
          | none => askBody (ddTrip (cipherCount (setCl s1 cl (setChan k ch { h with job := some { j with tags := j.tags.erase t } })) (sectorsBack r)) (.cluster cl) (.hub 0) 1 (bulkFlits (sectorsBack r * 512))) cl ch
          | some d => failJob s1 cl ch j (failAt E_HOST d 3 r.dev)

end Sys2Proof.Machine
end

