-- ==== Sys2Proof/Machine/Station.lean ====
section
/-! DEFINITION. Update stations (R220 to R236, R239, R241, R244, R249, R251, R252): gradient packets, the update of a record, errors,
enabling. -/
namespace Sys2Proof.Machine

/-! ### Regions (R251) -/
def stnOn (k : Mc) : Bool := bit (mcReg k 0x1000) 0
def stnTrapped (k : Mc) : Bool := bit (mcReg k 0x1004) 1
def regOn (k : Mc) (r : Nat) : Bool := stnOn k && bit (mcReg k 0x1000) (4 + r)
def regBase (k : Mc) (r : Nat) : Nat := fld (mcReg k (0x1010 + 0x10 * r)) 17 0 * 2 ^ 21
def regCount (k : Mc) (r : Nat) : Nat := fld (mcReg k (0x1014 + 0x10 * r)) 20 0
def regM (k : Mc) (r : Nat) : Nat := fld (mcReg k (0x1014 + 0x10 * r)) 22 21
def regSplit (k : Mc) (r : Nat) : Bool := bit (mcReg k (0x1014 + 0x10 * r)) 23
def regHost (k : Mc) (r : Nat) : Nat := fld (mcReg k (0x1018 + 0x10 * r)) 19 0 * 2 ^ 21
/-- R220, R244: the pitch of the records in SPACE 2. -/
def pitchOf (m : Nat) (split : Bool) : Nat := if m = 0 ∨ split = true then 0x4000 else 0x8000
def regPitch (k : Mc) (r : Nat) : Nat := pitchOf (regM k r) (regSplit k r)

/-- The enabled region and the index of the record at an address. -/
def recordOf (k : Mc) (a : Nat) : Option (Nat × Nat) :=
  ((List.range 4).find? (fun r => regOn k r && decide (regBase k r ≤ a) && (a - regBase k r) % regPitch k r == 0 &&
    decide ((a - regBase k r) / regPitch k r < regCount k r))).map (fun r => (r, (a - regBase k r) / regPitch k r))

/-- Records of the enabled regions. -/
def recordTotal (k : Mc) : Nat := ((List.range 4).map (fun r => if regOn k r then regCount k r else 0)).sum

/-- The open step of the station for a partition. -/
def openFor (k : Mc) (p : Nat) : Option (BitVec 16) := if stnOn k ∧ stnPid k = p then k.stn.openStep else none

/-! ### Completion (R237) -/
/-- The controller is complete for the open step of partition p. -/
def stnComplete (k : Mc) (p : Nat) : Bool :=
  !(stnOn k) || stnPid k != p || fld (mcReg k 0x1050) 21 0 == recordTotal k

/-- A complete controller sends its completion message, once a step. -/
def sendCompletion (s : State) (m p : Nat) : State :=
  let q := getPart s p
  if stnComplete (getMc s m) p && !(bit q.step.compMsgs m) && !(bit q.step.comp m) then
    setPart s p { q with step := { q.step with compMsgs := setBit q.step.compMsgs m true } }
  else s

/-! ### The arrival buffer (R228 to R230) -/
/-- Blocks that a tile of a record takes. -/
def tileBlocks (k : Mc) (a : Nat) : Nat :=
  match recordOf k a with
  | some (r, _) => if regSplit k r then 1 + 4 * (1 + regM k r) else 1
  | none => 1
def stnBlocks (k : Mc) : Nat := (k.stn.tiles.map (fun t => tileBlocks k t.addr)).sum

/-- What a station makes of a gradient packet. -/
inductive GradTake
  | drop (code : Nat)
  | add
  | open_
  | full
  deriving DecidableEq, Repr

/-- The packet belongs to a tile of which it is missing. -/
def tileWants (g : GradPkt) (t : GradTile) : Bool := t.addr == g.addr && t.step == g.step && !(bit t.got g.q)

/-- R227 to R229: what becomes of a gradient packet: with no block free none is accepted, whatever it is (log 26: DEDUCED). -/
def gradTake (k : Mc) (g : GradPkt) : GradTake :=
  if stnBlocks k ≥ 512 then .full
  else match openFor k g.pid with
  | none => .drop U_STALE
  | some o =>
    if g.step ≠ o ∧ g.step ≠ o + 1 then .drop U_STALE
    else if (recordOf k g.addr).isNone then .drop U_REGION
    else if k.stn.tiles.any (tileWants g) then .add
    else if k.stn.tiles.any (fun t => t.addr == g.addr && t.step == g.step) || k.stn.seen.contains (g.step, g.addr) then .drop U_DUP
    else if stnBlocks k + tileBlocks k g.addr > 512 then .full
    else .open_

/-- The four rows of the packet in the tile's frame. A tile that is complete goes behind those that were complete before it. -/
def addPacket (l : List GradTile) (g : GradPkt) : List GradTile :=
  match l.find? (tileWants g) with
  | none => l
  | some t =>
    let t1 := { t with got := setBit t.got g.q true, frame := mwrites t.frame (256 * g.q) g.bytes }
    let rest := l.erase t
    if t1.got = 255#8 then rest.filter (fun x => x.got == 255#8) ++ [t1] ++ rest.filter (fun x => x.got != 255#8) else rest ++ [t1]

/-- GRADIENT_PACKET (R228 to R230). A tile's error is logged at its first packet (log 26). -/
def execGradientPacket (m : McIx) (s : State) : Out := running s <|
  let k := getMc s m.val
  match k.stn.arrived with
  | [] => .next s
  | g :: gs =>
    let k1 := { k with stn := { k.stn with arrived := gs } }
    match gradTake k g with
    | .full => .next (setMc s m.val (k.setReg 0x1064 (mcReg k 0x1064 + 1)))
    | .add => .next (setMc s m.val { k1 with stn := { k1.stn with tiles := addPacket k1.stn.tiles g } })
    | .open_ =>
      .next (setMc s m.val { k1 with stn := { k1.stn with tiles := addPacket (k1.stn.tiles ++ [{ addr := g.addr, step := g.step, got := 0, frame := [] }]) g } })
    | .drop code =>
      if g.q ≠ 0 then .next (setMc s m.val k1)
      else
        let s1 := setMc s m.val (k1.updErr code 0 g.addr)
        if code = U_DUP then
          let q := getPart s1 g.pid
          .next (setPart s1 g.pid { q with step := { q.step with forces := q.step.forces ++ [g.step] } })
        else .next s1

/-! ### The update of a record (R232, R235) -/
/-- 2^-LSE as binary32, over the range of R242. -/
def scale32 (lse : BitVec 8) : Word := w32 ((127 - lse.toInt).toNat * 2 ^ 23)

/-- R232: the unscaled gradient, and whether an element is infinite or NaN. -/
def unscale (lse : BitVec 8) (frame : Mem) : List Byte × Bool :=
  let els := (List.range 1024).map (fun e => w32 (mreadNat frame (2 * e) 2))
  (els.flatMap (fun w => leBytes 4 (mul32 (widen false w).1 (scale32 lse)).1.toNat), els.any (fun w => fld w 14 10 == 31))

/-- R222: +0.0 outside the valid rows and columns; `sz` is the element size. -/
def maskTile (sz rows cols : Nat) (l : List Byte) : List Byte :=
  (List.range 1024).flatMap (fun e => if e / 32 < rows ∧ e % 32 < cols then (l.drop (e * sz)).take sz else List.replicate sz 0)

/-- Where the masters and moments of a record lie: space and address of value i of slot sl. -/
def stateAt (k : Mc) (r idx a sl i : Nat) : Nat × Nat :=
  let n := 1 + regM k r
  let off := (sl * n + i) * 0x1000
  if regSplit k r then (3, regHost k r + idx * (2 * n * 0x1000) + off) else (2, a + 0x2000 + off)

/-- Several values of one slot. (log 72: DEDUCED.) -/
def readState (s : State) (w : Who) (k : Mc) (r idx a sl : Nat) : List Nat → Except RlFail (List (List Byte))
  | [] => .ok []
  | i :: is =>
    let z := stateAt k r idx a sl i
    match tierRead s w z.1 z.2 0x1000 with
    | .error f => .error f
    | .ok b => match readState s w k r idx a sl is with
      | .error f => .error f
      | .ok l => .ok (b :: l)

/-- R231: the kernel that UPD_CTL.KSEL selects. -/
def kernelWords (k : Mc) (n : Nat) : BitVec 64 :=
  let ks := fld (mcReg k 0x1000) 3 1
  if ks = 1 then kernelSgd.getD n 0
  else if ks = 2 then (kernelAdam false).getD n 0
  else if ks = 3 then (kernelAdam true).getD n 0
  else BitVec.ofNat 64 ((mcReg k (0x1800 + 8 * n)).toNat + (mcReg k (0x1804 + 8 * n)).toNat * 2 ^ 32)

/-- The partition's step stops early (R239): SOVF, or OVF where core reports decide. (log 89: DEDUCED.) -/
def stepLost (q : Part) : Bool := let st := partReg q 0x114; bit st 19 || (bit st 17 && !(bit (partReg q 0x110) 2))

/-- R249: a running print holds the update of a record that it has not yet copied, where the update would write the slot that holds the
printed step's state. -/
def printHolds (s : State) (p m r idx a : Nat) : Bool :=
  match (getPart s p).step.print with
  | none => false
  | some q =>
    q.todo.contains (m, r, idx) &&
    match tierRead s { pid := p, cl := 0, stn := true } 2 a 4 with
    | .error _ => false
    | .ok h =>
      let hw := w32 (leNat h)
      -- The shadow slot is the one that holds the printed step's state.
      1 - effectiveSlot hw (updLast s m p) == effectiveSlot hw (w32 (fld (partReg (getPart s p) 0x184) 15 0 + 2 ^ 16))

/-- Step 6 of R235: the tile leaves the buffer, the record counts. -/
def tileDone (s : State) (m p : Nat) (t : GradTile) : State :=
  let k := getMc s m
  let k1 := { k with stn := { k.stn with tiles := k.stn.tiles.erase t, seen := k.stn.seen ++ [(t.step, t.addr)], work := none } }
  sendCompletion (setMc s m (k1.setReg 0x1050 (w32 (fld (mcReg k 0x1050) 21 0 + 1)))) m p

/-- R232: SOVF of the partition's step. -/
def setSovf (s : State) (p : Nat) (b : Bool) : State :=
  if b then let q := getPart s p; setPart s p (q.setReg 0x114 (setBit (partReg q 0x114) 19 true)) else s

/-- The masters and moments that step 4 writes, in its order, and the cache: value number and bytes; the cache's bytes. -/
def shadowVals (k : Mc) (r rows cols : Nat) (scratch : Mem) : List (Nat × List Byte) :=
  (((List.range (1 + regM k r)).filter (· != 0)) ++ [0]).map (fun i => (i, maskTile 4 rows cols (mblock scratch (0x4000 + 0x1000 * i) 0x1000)))
def shadowCache (a sl rows cols : Nat) (scratch : Mem) : Nat × List Byte :=
  (a + 0x800 + 0x800 * sl, maskTile 2 rows cols (mblock scratch 0x7000 0x800))

/-! ### SPLIT state through ring channel 3 (R244; the places in the arrival buffer are the model's: log 116) -/
def splitRing : Nat := 0x700000
def splitIn : Nat := 0x710000
def splitOut : Nat := 0x720000

/-- A descriptor of n binary32 tiles of 32 × 32 that follow one another. -/
def tilesDesc (space addr n : Nat) : Desc :=
  BitVec.ofNat 512 (addr % 2 ^ 48 + space * 2 ^ 48 + 2 ^ 64 + 3 * 2 ^ 68 + 31 * 2 ^ 72 + 31 * 2 ^ 77 + 32 * 2 ^ 96 + 32 * 2 ^ 112 + n * 2 ^ 128 + 2 ^ 176 +
    4 * 2 ^ 192 + 128 * 2 ^ 224 + 0x1000 * 2 ^ 256)

/-- The station's ring holds no entry. -/
def splitIdle (s : State) (m : Nat) : Bool := let k := getCl s (mcCluster m); ringHead k 3 == ringTail k 3

/-- The station writes an entry that copies one run of tiles, and the ring's TAIL. -/
def splitPost (s : State) (m : Nat) (src dst : Desc) : State :=
  let cl := mcCluster m
  let k := getCl s cl
  let n := ringTail k 3
  let e := leBytes 64 0 ++ leBytes 64 src.toNat ++ leBytes 64 dst.toNat
  setCl s cl ({ k with staging := mwrites k.staging (splitRing + 192 * n) e }.setReg 0x1858 (w32 ((n + 1) % 2)))

/-- The station takes the channel, or gives it back (R244). -/
def splitOpen (s : State) (m pid : Nat) : State :=
  let cl := mcCluster m
  if splitRegion s m then
    let k := getCl s cl
    setCl s cl { (((k.setReg 0x1850 3).setReg 0x1854 (w32 splitRing)).setReg 0x1858 0).setReg 0x185C (w32 (0x1000 + pid * 2 ^ 24)) with ringBad := setBit k.ringBad 3 false }
  else s
def splitClose (s : State) (m : Nat) : State :=
  if splitRegion s m then let cl := mcCluster m; let k := getCl s cl; setCl s cl (ringClear k 3 (clReg k 0x1850)) else s

/-! ### The steps of an update (R235) -/
def setWork (s : State) (m : Nat) (w : Option Work) : State :=
  let k := getMc s m
  setMc s m { k with stn := { k.stn with work := w } }

/-- Steps 5 and 6. -/
def updateEnd (s : State) (m p l : Nat) (o : BitVec 16) (t : GradTile) : State :=
  tileDone (tierPut s { pid := p, cl := mcCluster m, stn := true } 2 [(t.addr, leBytes 4 (l + 2 + o.toNat * 2 ^ 16))]) m p t

/-- Step 4: the shadow slot, in LPDDR6, or by way of the arrival buffer and a ring entry. -/
def updateStore (s : State) (m p r idx l : Nat) (o : BitVec 16) (t : GradTile) (rows cols : Nat) (scratch : Mem) : State :=
  let k := getMc s m
  let w : Who := { pid := p, cl := mcCluster m, stn := true }
  let vals := shadowVals k r rows cols scratch
  let cache := shadowCache t.addr (1 - l) rows cols scratch
  if regSplit k r then
    let n := 1 + regM k r
    let s1 := tierPut s w 1 (vals.map (fun v => (splitOut + 0x1000 * v.1, v.2)))
    setWork (splitPost s1 m (tilesDesc 1 splitOut n) (tilesDesc 3 (stateAt k r idx t.addr (1 - l) 0).2 n)) m
      (some { addr := t.addr, phase := .store [cache, (t.addr, leBytes 4 (l + 2 + o.toNat * 2 ^ 16))] })
  else updateEnd (tierPut s w 2 (vals.map (fun v => ((stateAt k r idx t.addr (1 - l) v.1).2, v.2)) ++ [cache])) m p l o t

/-- The kernel run of step 3 as far as it goes in one command (log 25). -/
def updateKernel (s : State) (m p r idx l : Nat) (o : BitVec 16) (t : GradTile) (hd : BitVec 64) (run : Core) : State :=
  let res := kernelGo p (kernelWords (getMc s m)) kernelBound { State.reset with cores := [(0, run)], free := s.free }
  let s1 := { s with free := res.2.free }
  match res.1 with
  | .running => setWork s1 m (some { addr := t.addr, phase := .kernel l (getCore res.2 0) })
  | .trap c => stopStation s1 m U_TRAP c t.addr
  | .done scratch => updateStore s1 m p r idx l o t (fld hd 36 32 + 1) (fld hd 41 37 + 1) scratch

/-- Steps 2 and 3 with the live state at hand (R232). -/
def updateBegin (s : State) (m p r idx l : Nat) (o : BitVec 16) (t : GradTile) (hd : BitVec 64) (cache : List Byte) (live : List (List Byte)) : State :=
  let k := getMc s m
  let g := unscale k.stn.lse t.frame
  let fr := takeFree 80 (setSovf s p g.2)
  updateKernel fr.2 m p r idx l o t hd (kernelCore { m := regM k r, g := g.1, live := live, cache := cache, hp := k.stn.hp, seed := fr.1.extractLsb' 0 64, tag := fr.1.extractLsb' 64 16 })

/-- What an update reads in LPDDR6. -/
def updateRanges (k : Mc) (r idx a l : Nat) : List (Nat × Nat) :=
  [(a, 8), (a + 0x800 + 0x800 * l, 0x800)] ++ (if regSplit k r then [] else (List.range (1 + regM k r)).map (fun i => ((stateAt k r idx a l i).2, 0x1000)))

/-- The live state of a SPLIT record, as the ring entry left it in the arrival buffer. -/
def splitLive (s : State) (m n : Nat) : List (List Byte) :=
  (List.range n).map (fun i => mreads (getCl s (mcCluster m)).staging (splitIn + 0x1000 * i) 0x1000)

/-- One command's part of an update; `ecc` is what the burst code finds in its reads of LPDDR6 (R194). -/
def updateStep (s0 : State) (m p r idx : Nat) (o : BitVec 16) (t : GradTile) (ecc : Ecc) : State :=
  let k := getMc s0 m
  let w : Who := { pid := p, cl := mcCluster m, stn := true }
  let stall := fun (off : Nat) => setMc s0 m (k.setReg off (mcReg k off + 1))
  match tierRead s0 w 2 t.addr 8 with
  | .error _ => stopStation s0 m U_POISON 0 t.addr
  | .ok hd =>
    let h : BitVec 64 := BitVec.ofNat 64 (leNat hd)
    let l := effectiveSlot (h.setWidth 32) (updLast s0 m p)
    let n := 1 + regM k r
    match (k.stn.work.map Work.phase : Option WorkPhase) with
    | some (WorkPhase.kernel l1 run) => updateKernel s0 m p r idx l1 o t h run
    | some (.store ws) => if splitIdle s0 m then tileDone (ws.foldl (fun s x => tierPut s w 2 [x]) s0) m p t else stall 0x1068
    | some .fetch =>
      if !(splitIdle s0 m) then stall 0x1068
      else match tierRead s0 w 2 (t.addr + 0x800 + 0x800 * l) 0x800 with
        | .error _ => stopStation s0 m U_POISON 0 t.addr
        | .ok cache => updateBegin s0 m p r idx l o t h cache (splitLive s0 m n)
    | none =>
      if printHolds s0 p m r idx t.addr then stall 0x106C
      else
        let s1 := eccRead (setMc s0 m { k with stn := { k.stn with xlate := touchCache 256 k.stn.xlate (p, 2, t.addr / 2 ^ 21) } }) p (updateRanges k r idx t.addr l) ecc
        match tierRead s1 w 2 t.addr 8, tierRead s1 w 2 (t.addr + 0x800 + 0x800 * l) 0x800 with
        | .ok _, .ok cache =>
          if regSplit k r then
            if splitIdle s1 m then
              setWork (splitPost s1 m (tilesDesc 3 (stateAt k r idx t.addr l 0).2 n) (tilesDesc 1 splitIn n)) m (some { addr := t.addr, phase := .fetch })
            else stall 0x1068
          else match readState s1 w k r idx t.addr l (List.range n) with
            | .error _ => stopStation s1 m U_POISON 0 t.addr
            | .ok live => updateBegin s1 m p r idx l o t h cache live
        | _, _ => stopStation s1 m U_POISON 0 t.addr

/-- UPDATE_TILE (R231, R235, R239, R249): the tile of the open step that completed first. (log 71: DEDUCED.) -/
def execUpdateTile (m : McIx) (ecc : Ecc) (s : State) : Out := running s <|
  let k := getMc s m.val
  let p := stnPid k
  match openFor k p with
  | none => .next s
  | some o =>
    if stnTrapped k then .next s
    else match k.stn.tiles.filter (fun t => t.got == 255#8 && t.step == o) with
      | [] => .next s
      | t :: _ =>
        if stepLost (getPart s p) then .next (tileDone (setSovf s p (unscale k.stn.lse t.frame).2) m.val p t)
        else match recordOf k t.addr with
          | none => .next s
          | some (r, idx) => .next (updateStep s m.val p r idx o t ecc)

/-! ### UPD_CTL (R251, R252) -/
/-- The pages of a region. -/
def regPages (k : Mc) (r : Nat) : List Nat :=
  let n := regCount k r * regPitch k r
  (List.range ((n + 2 ^ 21 - 1) / 2 ^ 21)).map (fun i => regBase k r / 2 ^ 21 + i)
/-- The host pages of a SPLIT region. -/
def regHostPages (k : Mc) (r : Nat) : List Nat :=
  let n := regCount k r * (2 * (1 + regM k r) * 0x1000)
  (List.range ((n + 2 ^ 21 - 1) / 2 ^ 21)).map (fun i => regHost k r / 2 ^ 21 + i)

/-- Moments that a supplied kernel needs. -/
def kernelNeeds (ks : Nat) : Nat := if ks = 1 then 1 else if ks = 2 ∨ ks = 3 then 2 else 0

/-- A LIVE slot of the partition has the epoch. -/
def epochLive (s : State) (p e : Nat) : Bool := (List.range 2).any (fun k => slotState s p k == 1 && slotEpoch s p k == e)

/-- The page is valid and its epoch names a LIVE slot. -/
def hostPageLive (s : State) (p page : Nat) : Bool :=
  match pageOf s p 3 (page * 2 ^ 21) with
  | some e => epochLive s p (ptEpoch e)
  | none => false

/-- R382, then R252, its reasons in order; `k` has the new UPD_CTL. (log 129: DEDUCED.) -/
def updCheck (s : State) (m pid : Nat) (k : Mc) : Nat :=
  let on := (List.range 4).filter (fun r => bit (mcReg k 0x1000) (4 + r))
  let ks := fld (mcReg k 0x1000) 3 1
  let span := fun r => (regBase k r, regCount k r * regPitch k r)
  let cl := mcCluster m
  if !locked s (.mc m) then 0x10
  else if bit (partReg (getPart s pid) 0x114) 16 then 0x0D
  else if stationOwner s m != some pid || on.any (fun r => (regPages k r).any (fun p =>
      match pageOf s pid 2 (p * 2 ^ 21) with | some e => ptPkg e != m | none => true)) then 0x0E
  else if ks > 3 || on.any (fun r => regM k r == 3 || decide (kernelNeeds ks > regM k r)) then 0x06
  else if on.any (fun a => on.any (fun b => decide (a < b) && rangesMeet [span a] [span b])) ||
      (List.range 16).any (fun i => (stagingOwner s cl (112 + i)).isSome) ||
      (List.range 4).any (fun n => ringOn (getCl s cl) n && rangesMeet [(0x700000, 0x100000)] [ringSpan (getCl s cl) n]) then 0x01
  else if on.any (fun r => regSplit k r) && ringOn (getCl s cl) 3 then 0x03
  else if on.any (fun r => regSplit k r && (regHostPages k r).any (fun p => !(hostPageLive s pid p))) then 0x12
  else 0

/-- A masked write of UPD_CTL. (log 27: DEDUCED.) -/
def updCtlWrite (s : State) (m pid : Nat) (v : Word) : State :=
  let k := getMc s m
  let old := mcReg k 0x1000
  let new := mwApply 0xFF old v
  let st := mcReg k 0x1004
  if bit old 0 && bit new 0 then s
  else if bit old 0 then
    -- ENABLE is cleared: the station stops, its buffer is emptied, TRAPPED goes (log 27).
    let k1 := (k.setReg 0x1000 new).setReg 0x1004 (setFld st 1 0 0)
    setMc (splitClose s m) m { k1 with stn := { Station.reset with arrived := k.stn.arrived } }
  else if bit new 0 then
    let c := updCheck s m pid (k.setReg 0x1000 new)
    if c = 0 then
      let st1 := setFld (setFld (setFld st 1 0 1) 6 4 pid) 15 8 0
      let k1 := ((k.setReg 0x1000 new).setReg 0x1004 st1).setReg 0x1050 0
      splitOpen (setMc s m { k1 with stn := { Station.reset with arrived := k.stn.arrived } }) m pid
    else setMc s m ((k.setReg 0x1000 (setBit new 0 false)).setReg 0x1004 (setFld st 15 8 c))
  else setMc s m (k.setReg 0x1000 new)

/-- The firewall in front of a station's registers (R141, R252). -/
def updRefusal (s : State) (m : Nat) (typ : Bool) (pid : Nat) : Option Nat :=
  let k := getMc s m
  ownCheck s pid (lastOwner k.regs 0x1004 (stnPid k)) (stnOn k) (pid == 0xF && typ)

/-- A write of the physical function to a station's registers that the firewall refuses counts in the sealed partition as one that sealing drops (R141,
R326). -/
def updSealed (s : State) (fn : Fn) (m off : Nat) (refused : Option Nat) (t : State) : State :=
  if fn = .pf ∧ fnLive s fn = true ∧ stopped s (.mc m) = false ∧ 0x1000 ≤ off ∧ refused.isSome = true then sealDropOf t (stationOwner s m) 0xF t else t
/-- A write of the physical function to the registers of a sealed partition's station is dropped (R326). -/
def updCtlGuard (s : State) (fn : Fn) (m : Nat) (v : Word) : State :=
  let check := updRefusal s m (mwStaysOn (mcReg (getMc s m) 0x1000) v)
  updSealed s fn m 0x1000 (check 0xF) (guarded s fn (.mc m) 0x1000 check (fun pid => sealDropOf s (stationOwner s m) pid (updCtlWrite s m pid v)))

/-- UPD_CTL_ENABLE (R252). -/
def execUpdCtlEnable (fn : Fn) (m : McIx) (v : Word) (s : State) : Out := .next (updCtlGuard s fn m.val v)
/-- UPD_CTL_DISABLE (R241, R251). -/
def execUpdCtlDisable (fn : Fn) (m : McIx) (v : Word) (s : State) : Out := .next (updCtlGuard s fn m.val v)

/-- A write of UPD_LASTp takes effect only while no station is enabled for the partition. -/
def updLastWrite (s : State) (m p pid : Nat) (v : Word) : State :=
  sealDrop s p pid
    (if (List.range 16).any (fun n => let k := getMc s n; stnOn k && stnPid k == p) then s
     else setMc s m ((getMc s m).setReg (0x1080 + 4 * p) (v &&& 0x3FFFF#32)))
/-- UPD_LASTP (R251). -/
def execUpdLastp (fn : Fn) (m : McIx) (p : PartIx) (v : Word) (s : State) : Out :=
  .next (guarded s fn (.mc m.val) (0x1080 + 4 * p.val) (fun pid => ownCheck s pid p.val true false) (fun pid => updLastWrite s m.val p.val pid v))

end Sys2Proof.Machine
end

