-- ==== Sys2Proof/Machine/Training.lean ====
section
/-! DEFINITION. The partition's step (R237 to R243), step records (R346 to R348), prints (R247 to R250), securing (R349), the proof (R350,
R351). -/
namespace Sys2Proof.Machine

/-! ### The digests of a step record (R346, R347) -/
/-- A word of a station entry. -/
def entWord (q : Part) (e off : Nat) : Word := partReg q (0x8000 + e * 0x100 + off)
/-- The lowest core index of an entry. -/
def entFirst (q : Part) (e : Nat) : Nat :=
  ((List.range 8).map (fun k => let w := entWord q e (0x40 + 4 * k); if fld w 25 13 = 0 then 8192 else fld w 12 0)).foldl min 8192
/-- The enabled entries by context, then by lowest core index. -/
def entOrder (q : Part) : List Nat :=
  let l := (List.range 128).filter (fun e => bit (entWord q e 0) 0)
  (List.range 4).flatMap (fun x => (l.filter (fun e => fld (entWord q e 0) 2 1 == x)).mergeSort (fun a b => decide (entFirst q a ≤ entFirst q b)))
def wordsBytes (l : List Word) : List Byte := l.flatMap (fun w => leBytes 4 w.toNat)

/-- R347: the digest of the program (log 29: DEDUCED). -/
def progDigest (s : State) (p : Nat) : BitVec 384 :=
  let q := getPart s p
  sha384 ((entOrder q).flatMap (fun e => wordsBytes ((List.range 12).map (fun i => entWord q e (0x10 + 4 * i)))))

/-- The input descriptor table; a table that cannot be read leaves the digest open (log 1). -/
def inputDigest (s : State) (p : Nat) : BitVec 384 :=
  let w := partReg (getPart s p) 0x1C8
  match tierRead s { pid := p, cl := 0, stn := false } 2 (fld w 17 0 * 2 ^ 21) (64 * fld w 28 18) with
  | .ok b => sha384 b
  | .error _ => (Config.freeWord s.free).setWidth 384

/-- The valid route entries, then steering entries, of partition p in one enabled context of a cluster (log 29). -/
def topoCtx (k : Cluster) (p x : Nat) : List Word :=
  let rs := (List.range 3).flatMap (fun n => (List.range (netSlots n)).map (fun i => route k x n i))
  let us := (List.range 16).filter (fun u =>
    let w := steer k x u
    bit w 0 && (let r := route k x (fld w 3 3) (stInD w); rtValid r && rtPid r == p))
  rs.filter (fun r => rtValid r && rtPid r == p) ++ us.map (fun u => steer k x u)

def topoDigest (s : State) (p : Nat) : BitVec 384 :=
  let cls := (List.range 160).flatMap (fun c =>
    let k := getCl s c
    (List.range 4).flatMap (fun x => if swEnabled k x then topoCtx k p x else []))
  let grps := (List.range 16).flatMap (fun l =>
    let k := getLnk s l
    (List.range 4).flatMap (fun g =>
      let st := lnkReg k (0x2814 + 0x20 * g)
      if bit st 0 && fld st 3 1 == p then
        lnkReg k (0x2804 + 0x20 * g) :: (List.range 16).map (fun i => lnkReg k (0x2900 + 0x40 * g + 4 * i))
      else []))
  sha384 (wordsBytes (cls ++ grps))

/-! ### Opening a step -/
/-- What a step latches when it opens (R242, R346). (log 73: DEDUCED.) -/
def latchStep (s : State) (p : Nat) : State :=
  let q := getPart s p
  let b := { q.step with lse := (partReg q 0x10C).setWidth 8, hp := (List.range 8).map (fun i => partReg q (0x120 + 4 * i)),
                         prog := progDigest s p, inp := inputDigest s p, topo := topoDigest s p }
  { setPart s p { q with step := b } with free := s.free + 1 }

/-- A controller opens step o for partition p (R228, R237): its station, if it serves p, takes what the step latched. -/
def stationOpens (s : State) (m p : Nat) (o : BitVec 16) : State :=
  let k := getMc s m
  let b := (getPart s p).step
  let s1 := if stnOn k && stnPid k == p then
      setMc s m { k.setReg 0x1050 0 with stn := { k.stn with openStep := some o, hp := b.hp, lse := b.lse, seen := k.stn.seen.filter (fun e => e.1 == o) } }
    else s
  sendCompletion s1 m p

/-- No step is open at the station; what it holds is discarded and logged (R240). -/
def stationCloses (s : State) (m p : Nat) : State :=
  let k := getMc s m
  if stnOn k && stnPid k == p then
    let k1 := k.stn.tiles.foldl (fun k t => k.updErr U_STALE 0 t.addr) k
    setMc s m { k1 with stn := { k1.stn with openStep := none, tiles := [], seen := [], work := none } }
  else s

/-! ### Step records (R346, R347) -/
def srecOn (q : Part) : Bool := bit (partReg q 0x1C0) 0
def srecSpace (q : Part) : Nat := if bit (partReg q 0x1C0) 1 then 3 else 2

/-- The 256 bytes of a record. -/
def srecBytes (q : Part) (o : BitVec 16) (outcome : Nat) (forced : Bool) : List Byte :=
  let head := leBytes 2 o.toNat ++ leBytes 1 (outcome + 4 * b2n forced) ++ leBytes 1 q.step.lse.toNat ++ leBytes 4 (q.step.seq + 1).toNat ++
    leBytes 4 (partReg q 0x100).toNat ++ leBytes 4 (partReg q 0x104).toNat ++ wordsBytes ((List.range 8).map (fun i => q.step.hp.getD i 0)) ++
    List.replicate 16 0 ++ digestBytes q.step.prog ++ digestBytes q.step.inp ++ digestBytes q.step.topo
  head ++ leBytes 4 (crc32c head).toNat ++ List.replicate 44 0

/-- The record of a decided step. A record that its tier refuses is not written (log 30). (log 30: DEDUCED.) -/
def writeRecord (s : State) (p : Nat) (o : BitVec 16) (outcome : Nat) (forced : Bool) : State :=
  let q := getPart s p
  if srecOn q then
    let st := partReg q 0x1CC
    let a := fld (partReg q 0x1C4) 19 0 * 2 ^ 21 + 256 * fld st 20 0
    let w : Who := { pid := p, cl := 0, stn := false }
    let ws := [(a, srecBytes q o outcome forced)]
    match writeFail s w (srecSpace q) ws with
    | some _ => s
    | none =>
      let s1 := tierPut s w (srecSpace q) ws
      let q1 := getPart s1 p
      setPart s1 p { q1.setReg 0x1CC (setFld st 20 0 ((fld st 20 0 + 1) % 2 ^ fld (partReg q1 0x1C0) 6 2)) with step := { q1.step with seq := q1.step.seq + 1 } }
  else s

/-- The valid pages that follow one another from a page on, up to n. -/
def validRun (s : State) (p space page n : Nat) : Bool :=
  (List.range n).all (fun i => (pageOf s p space ((page + i) * 2 ^ 21)).isSome && decide (page + i < pageMax space))
/-- A valid page of a range whose epoch names no LIVE slot. -/
def keylessPage (s : State) (p page n : Nat) : Bool :=
  (List.range n).any (fun i => (pageOf s p 3 ((page + i) * 2 ^ 21)).isSome && !(hostPageLive s p (page + i)))

/-- R348, its reasons in order; `q` has the new control word. -/
def srecCheck (s : State) (p : Nat) (q : Part) : Nat :=
  let lg := fld (partReg q 0x1C0) 6 2
  let n := (2 ^ lg * 256 + 2 ^ 21 - 1) / 2 ^ 21
  let base := fld (partReg q 0x1C4) 19 0
  let w := partReg q 0x1C8
  if bit (partReg q 0x114) 16 then 0x0D
  else if lg < 8 ∨ lg > 20 ∨ fld w 28 18 > 1024 then 0x06
  else if !(validRun s p (srecSpace q) base n) || (fld w 28 18 != 0 && !(validRun s p 2 (fld w 17 0) 1)) then 0x02
  else if srecSpace q == 3 && keylessPage s p base n then 0x12 else 0

def srecCtlWrite (s : State) (p : Nat) (v : Word) : State :=
  let q := getPart s p
  let old := partReg q 0x1C0
  let new := mwApply 0x7F old v
  let st := partReg q 0x1CC
  if !(bit old 0) && bit new 0 then
    let c := srecCheck s p (q.setReg 0x1C0 new)
    if c = 0 then setPart s p { (q.setReg 0x1C0 new).setReg 0x1CC 0 with step := { q.step with seq := 0 } }
    else setPart s p ((q.setReg 0x1C0 (setBit new 0 false)).setReg 0x1CC (setFld st 31 24 c))
  else setPart s p (q.setReg 0x1C0 new)

/-- PART_SREC_CTL_ENABLE (R348). -/
def execPartSrecCtlEnable (fn : Fn) (p : PartIx) (v : Word) (s : State) : Out :=
  .next (partGuard s fn p.val 0x1C0 (srecCtlWrite s p.val v))

/-! ### Arming a print (R247, R250) -/
/-- The enabled regions of a partition, in the order of R247: station and region. -/
def printRegions (s : State) (p : Nat) : List (Nat × Nat) :=
  (List.range 16).flatMap (fun m =>
    let k := getMc s m
    if stnOn k && stnPid k == p then ((List.range 4).filter (fun r => regOn k r)).map (fun r => (m, r)) else [])

/-- R220: the pitch of a record as it is printed. -/
def fullPitch (m : Nat) : Nat := if m = 0 then 0x4000 else 0x8000

/-- Bytes of a print: manifest and records. -/
def printSize (s : State) (p : Nat) : Nat :=
  64 + ((printRegions s p).map (fun x => let k := getMc s x.1; 32 + regCount k x.2 * fullPitch (regM k x.2))).sum

/-- R250: the lowest reason that applies (R366); `w` is the new PART_PRINT_CTL. -/
def printCheck (s : State) (p : Nat) (w : Word) : Nat :=
  let q := getPart s p
  let st := partReg q 0x184
  let host := !(bit w 1)
  let n := (printSize s p + 2 ^ 21 - 1) / 2 ^ 21
  let base := fld (partReg q 0x188) 19 0
  if host && !(validRun s p 3 base n) then 0x02
  else if host && hwrOwner q == 2 then 0x03
  else if !host && !(lnkTrained s (fld w 5 2)) then 0x08
  else if bit st 16 || bit st 17 then 0x0D
  else if host && keylessPage s p base n then 0x12 else 0

/-- A print is armed, or its refusal is recorded; that of a claim of the host write ring there too (R306). -/
def armPrint (s : State) (p : Nat) (w : Word) : State × Nat :=
  let q := getPart s p
  let c := printCheck s p w
  let st := setFld (partReg q 0x184) 31 24 c
  if c = 0 then
    let q1 := (q.setReg 0x180 (setBit w 0 true)).setReg 0x184 (setBit st 16 true)
    (setPart s p (if bit w 1 then q1 else hwrClaim q1 1), 0)
  else
    let q1 := (q.setReg 0x180 (setBit w 0 false)).setReg 0x184 st
    (setPart s p (if c = 0x03 then q1.setReg 0x90 (setFld (partReg q1 0x90) 31 24 0x03) else q1), c)

/-- A masked write of PART_PRINT_CTL. Clearing ENABLE disarms a print that has not been taken (log 31). (log 31: DEDUCED.) -/
def printCtlWrite (s : State) (p : Nat) (v : Word) : State :=
  let q := getPart s p
  let old := partReg q 0x180
  let new := mwApply 0x3F old v
  let st := partReg q 0x184
  if !(bit old 0) && bit new 0 then (armPrint s p new).1
  else if bit old 0 && !(bit new 0) && bit st 16 then
    let q1 := (q.setReg 0x180 new).setReg 0x184 (setBit st 16 false)
    setPart s p (hwrClaim { q1 with step := { q1.step with secPrint := false } } (if hwrOwner q1 = 1 then 0 else hwrOwner q1))
  else setPart s p (q.setReg 0x180 new)

/-- PART_PRINT_CTL_ENABLE (R250). -/
def execPartPrintCtlEnable (fn : Fn) (p : PartIx) (v : Word) (s : State) : Out :=
  .next (partGuard s fn p.val 0x180 (printCtlWrite s p.val v))

/-! ### Securing (R349) -/
/-- Securing arms its print, or a refusal counts in MISS. The refusal leaves the print that it met as it was. -/
def secureArm (s : State) (p : Nat) : State :=
  let q := getPart s p
  let z := armPrint s p (partReg q 0x180)
  let q1 := getPart z.1 p
  if z.2 = 0 then setPart z.1 p { q1 with step := { q1.step with secPrint := true } }
  else
    let w := partReg q1 0x1E8
    setPart z.1 p ((q1.setReg 0x180 (partReg q 0x180)).setReg 0x1E8 (setFld w 31 16 (fld w 31 16 + 1)))
/-- It does so when a print is due: N - 1 commits have followed the secured step, and none of its own is under way. -/
def secureTry (s : State) (p : Nat) : State :=
  let q := getPart s p
  if bit (partReg q 0x1E0) 0 && !q.step.secPrint && decide (q.step.secCount + 1 ≥ fld (partReg q 0x1E4) 15 0) then secureArm s p else s

/-- A masked write of PART_SECURE_CTL: an ENABLE arms at once. A print of its own that is still under way stays its own, and is met as BUSY. -/
def secureCtlWrite (s : State) (p : Nat) (v : Word) : State :=
  let q := getPart s p
  let old := partReg q 0x1E0
  let new := mwApply 1 old v
  let q1 := q.setReg 0x1E0 new
  if !(bit old 0) && bit new 0 then secureArm (setPart s p { q1 with step := { q1.step with secCount := 65535 } }) p
  else setPart s p q1
/-- PART_SECURE_CTL_ENABLE (R349). -/
def execPartSecureCtlEnable (fn : Fn) (p : PartIx) (v : Word) (s : State) : Out :=
  .next (partGuard s fn p.val 0x1E0 (secureCtlWrite s p.val v))

/-- R248: the manifest. -/
def manifest (s : State) (p : Nat) (o : Nat) : List Byte :=
  let rs := printRegions s p
  leBytes 4 (o + 2 ^ 16) ++ leBytes 2 rs.length ++ List.replicate 58 0 ++
    rs.flatMap (fun x =>
      let k := getMc s x.1
      leBytes 4 (x.1 + x.2 * 16) ++ leBytes 4 (mcReg k (0x1014 + 0x10 * x.2)).toNat ++ leBytes 8 (regBase k x.2) ++ List.replicate 16 0)

/-- Every record of the enabled regions, in the order of R247. -/
def allRecords (s : State) (p : Nat) : List (Nat × Nat × Nat) :=
  (printRegions s p).flatMap (fun x => (List.range (regCount (getMc s x.1) x.2)).map (fun i => (x.1, x.2, i)))

/-- A print as it is taken for step o. -/
def printStart (s : State) (p o : Nat) : PrintRun :=
  { head := some (manifest s p o), todo := allRecords s p, regions := printRegions s p, pos := 0, rest := [], flits := 0 }

/-- A step has been decided COMMIT: an armed print is taken (R247), securing counts and makes its try (R349). -/
def commitPrints (s : State) (p : Nat) (o : BitVec 16) : State :=
  let q := getPart s p
  let st := partReg q 0x184
  let sec := { q.step with secCount := if bit st 16 && q.step.secPrint then 0 else q.step.secCount + 1 }
  if bit st 16 then
    let st1 := setFld (setBit (setBit st 16 false) 17 true) 15 0 o.toNat
    secureTry (setPart s p { q.setReg 0x184 st1 with step := { sec with print := some (printStart s p o.toNat) } }) p
  else secureTry (setPart s p { q with step := sec }) p

/-! ### The decision (R237, R238, R240) -/
/-- Step 5 of R237 at one controller. -/
def applyDecision (s : State) (m p : Nat) : State :=
  let q := getPart s p
  match q.step.decision with
  | none => s
  | some (o, commit) =>
    let s1 := setPart s p { q with step := { q.step with due := setBit q.step.due m false, ackMsgs := setBit q.step.ackMsgs m true } }
    let k := getMc s1 m
    let s2 := if commit then setMc s1 m (k.setReg (0x1080 + 4 * p) (w32 (o.toNat + 2 ^ 16))) else s1
    if q.step.closing then s2 else stationOpens s2 m p (o + 1)

/-- DECISION (R237). -/
def execDecision (p : PartIx) (m : McIx) (s : State) : Out := running s <|
  if bit (getPart s p.val).step.due m.val then .next (applyDecision s m.val p.val) else .next s

/-- COMPLETION_MESSAGE (R237). -/
def execCompletionMessage (p : PartIx) (m : McIx) (s : State) : Out :=
  let q := getPart s p.val
  if bit q.step.compMsgs m.val then
    let b := { q.step with compMsgs := setBit q.step.compMsgs m.val false, comp := setBit q.step.comp m.val true }
    let q1 := { q with step := b }
    .next (setPart s p.val (if b.comp = 0xFFFF#16 then q1.setReg 0x114 (setBit (partReg q1 0x114) 20 true) else q1))
  else .next s

/-- FORCING_MESSAGE (R230): for the open step, or kept for the next. -/
def execForcingMessage (p : PartIx) (s : State) : Out :=
  let q := getPart s p.val
  let st := partReg q 0x114
  match q.step.forces with
  | [] => .next s
  | n :: ns =>
    let b := { q.step with forces := ns }
    let o := st.setWidth 16
    .next (setPart s p.val { q with step := if bit st 16 = false then b else if n = o then { b with forced := true }
                                            else if n = o + 1 then { b with forcedNext := true } else b })

/-- PART_STEP_LAST of a decision, DECIDED at 0. -/
def lastWord (o : BitVec 16) (outcome : Nat) (forced : Bool) : Word := w32 (o.toNat + outcome * 2 ^ 16 + b2n forced * 2 ^ 18)

/-- OUTCOME_SAMPLE (R237, R238): the step after the one decided opens. -/
def execOutcomeSample (p : PartIx) (s : State) : Out :=
  let q := getPart s p.val
  let st := partReg q 0x114
  if bit st 16 && q.step.comp == 0xFFFF#16 && q.step.decision.isNone then
    let o : BitVec 16 := st.setWidth 16
    let skip := bit st 19 || (bit st 17 && !(bit (partReg q 0x110) 2)) || q.step.forced
    let outcome := if skip then 2 else 1
    let s1 := writeRecord s p.val o outcome q.step.forced
    let q1 := getPart s1 p.val
    let st1 := setBit (setBit (setBit (setFld st 15 0 (o + 1).toNat) 17 (bit st 18)) 18 false) 19 false
    let b := { q1.step with comp := 0, compMsgs := 0, forced := q1.step.forcedNext, forcedNext := false, decision := some (o, !skip), due := 0xFFFF#16, ackMsgs := 0, acked := 0, closing := false }
    let s2 := setPart s1 p.val { (q1.setReg 0x114 st1).setReg 0x118 (lastWord o outcome q.step.forced) with step := b }
    let s3 := latchStep s2 p.val
    .next (if skip then s3 else commitPrints s3 p.val o)
  else .next s

/-- ACKNOWLEDGEMENT (R237): the last one sets DECIDED and raises STEP. -/
def execAcknowledgement (p : PartIx) (m : McIx) (s : State) : Out :=
  let q := getPart s p.val
  if bit q.step.ackMsgs m.val then
    let b := { q.step with ackMsgs := setBit q.step.ackMsgs m.val false, acked := setBit q.step.acked m.val true }
    if b.acked = 0xFFFF#16 then
      let q1 := { q with step := { b with decision := none, acked := 0, closing := false } }
      let q2 := q1.setReg 0x118 (setBit (partReg q1 0x118) 19 true)
      .next (raisePart (setPart s p.val (q2.setReg 0x114 (setBit (partReg q2 0x114) 20 (b.comp == 0xFFFF#16)))) p.val 7)
    else .next (setPart s p.val { q with step := b })
  else .next s

/-- R240: the open step is decided SKIP, forced, and closed. Controllers that an earlier decision has still to reach take it first: it
was sent before. -/
def abortStep (s : State) (p : Nat) : State :=
  let q := getPart s p
  if bit (partReg q 0x114) 16 then
    let o : BitVec 16 := (partReg q 0x114).setWidth 16
    let s1 := ((List.range 16).filter (fun m => bit q.step.due m)).foldl (fun s m => applyDecision s m p) s
    let s2 := writeRecord s1 p o 2 true
    let q2 := getPart s2 p
    let st := setBit (setFld (partReg q2 0x114) 19 16 0) 20 true
    let b := { q2.step with comp := 0, compMsgs := 0, forced := false, forcedNext := false, decision := some (o, false), due := 0xFFFF#16, ackMsgs := 0, acked := 0, closing := true }
    let s3 := setPart s2 p { (q2.setReg 0x114 st).setReg 0x118 (lastWord o 2 true) with step := b }
    (List.range 16).foldl (fun s m => stationCloses s m p) s3
  else s

/-- R240, R341: OPEN, refused while a step is open or a loss stands. -/
def openStepCmd (s : State) (p : Nat) : State :=
  let q := getPart s p
  let st := partReg q 0x114
  if bit st 16 || bit (partReg q 0x1A0) 0 then setPart s p (q.setReg 0x114 (setFld st 31 24 0x0D))
  else
    let o : BitVec 16 := (partReg q 0x108).setWidth 16
    let st1 := setBit (setFld (setFld st 19 17 0) 15 0 o.toNat) 16 true
    let s1 := latchStep (setPart s p { q.setReg 0x114 st1 with step := { q.step with comp := 0, compMsgs := 0, forced := false, forcedNext := false } }) p
    (List.range 16).foldl (fun s m => stationOpens s m p o) s1

/-- A masked write of PART_STEP_CTL: OVFSRC, then ABORT, then OPEN (R363; log 32). (log 32: DEDUCED.) -/
def stepCtlWrite (s : State) (p : Nat) (v : Word) : State :=
  let q := getPart s p
  let new := mwApply 7 (partReg q 0x110) v
  let s1 := setPart s p (q.setReg 0x110 (new &&& 4#32))
  let s2 := if bit new 1 then abortStep s1 p else s1
  if bit new 0 then openStepCmd s2 p else s2

/-- PART_STEP_CTL_OPEN (R240). -/
def execPartStepCtlOpen (fn : Fn) (p : PartIx) (v : Word) (s : State) : Out :=
  .next (partGuard s fn p.val 0x110 (stepCtlWrite s p.val v))
/-- PART_STEP_CTL_ABORT (R240). -/
def execPartStepCtlAbort (fn : Fn) (p : PartIx) (v : Word) (s : State) : Out :=
  .next (partGuard s fn p.val 0x110 (stepCtlWrite s p.val v))

/-- PART_LSCALE (R242). -/
def lscaleWrite (s : State) (p : Nat) (v : Word) : State :=
  let q := getPart s p
  let e := (v.setWidth 8).toInt
  if -15 ≤ e ∧ e ≤ 30 then setPart s p (q.setReg 0x10C (v &&& 0xFF#32))
  else setPart s p (q.setReg 0x114 (setFld (partReg q 0x114) 31 24 0x06))
def execPartLscale (fn : Fn) (p : PartIx) (v : Word) (s : State) : Out :=
  .next (partGuard s fn p.val 0x10C (lscaleWrite s p.val v))

/-! ### The print (R247 to R249) -/
/-- A record in the layout of R220. -/
def wholeRecord (s : State) (p : Nat) (k : Mc) (r idx : Nat) : Except RlFail (List Byte) :=
  let a := regBase k r + idx * regPitch k r
  let w : Who := { pid := p, cl := 0, stn := true }
  if regSplit k r then
    let n := 2 * (1 + regM k r) * 0x1000
    match tierRead s w 2 a 0x2000, tierRead s w 3 (regHost k r + idx * n) n with
    | .ok x, .ok y => .ok (x ++ y ++ List.replicate (fullPitch (regM k r) - 0x2000 - n) 0)
    | .error f, _ => .error f
    | .ok _, .error f => .error f
  else tierRead s w 2 a (regPitch k r)

def wholeRecords (s : State) (p : Nat) : List (Nat × Nat × Nat) → Except RlFail (List (List Byte))
  | [] => .ok []
  | (m, r, i) :: l => match wholeRecord s p (getMc s m) r i with
    | .error f => .error f
    | .ok b => match wholeRecords s p l with
      | .error f => .error f
      | .ok bs => .ok (b :: bs)

/-- The LPDDR6 bytes of a record, and the host bytes of its state in a SPLIT region. -/
def recordRanges (k : Mc) (r idx : Nat) : List (Nat × Nat) := [(regBase k r + idx * regPitch k r, if regSplit k r then 0x2000 else regPitch k r)]
def recordHost (k : Mc) (r idx : Nat) : List (Nat × Nat) :=
  let n := 2 * (1 + regM k r) * 0x1000
  if regSplit k r then [(regHost k r + idx * n, n)] else []

/-- A byte string cut into pieces of n. -/
def pieces (n : Nat) : Nat → List Byte → List (List Byte)
  | 0, _ => []
  | k + 1, l => if l.isEmpty then [] else l.take n :: pieces n k (l.drop n)

/-- R279, R292: PRINT flits, numbered from n on. -/
def printItems (n : Nat) (ps : List (List Byte)) : List LinkItem :=
  (ps.zip (List.range ps.length)).map (fun x => { vc := false, typ := 8, info := BitVec.ofNat 48 ((n + x.2) % 2 ^ 32), payload := padFlit x.1 })

/-- PRINT flits wait at the port. -/
def printQueued (k : Lnk) : Bool := k.txq.any (fun i => i.typ == 8)

/-- The print is over (R247); a securing print is recorded, and the next one may be due (R349). -/
def printEnd (s : State) (p o : Nat) : State :=
  let q := getPart s p
  let q1 := (q.setReg 0x180 (setBit (partReg q 0x180) 0 false)).setReg 0x184 (setBit (setBit (partReg q 0x184) 17 false) 18 true)
  let q2 := hwrClaim { q1 with reads := tdel q1.reads 0, step := { q1.step with print := none, secPrint := false } } (if hwrOwner q1 = 1 then 0 else hwrOwner q1)
  if q.step.secPrint then secureTry (raisePart (setPart s p (q2.setReg 0x1E8 (setFld (partReg q2 0x1E8) 15 0 o))) p 8) p
  else raisePart (setPart s p q2) p 8

def setPrint (s : State) (p : Nat) (r : PrintRun) : State := modPart s p (fun q => { q with step := { q.step with print := some r } })

/-- The host sectors of a print's destination that a piece covers only in part (R215). -/
def printParts (s : State) (p : Nat) (r : PrintRun) (b : List Byte) : List Nat :=
  let q := getPart s p
  if bit (partReg q 0x180) 1 then [] else partSectors [(fld (partReg q 0x188) 19 0 * 2 ^ 21 + r.pos, b)]

/-- Bytes of the image go on to the print's destination; none where it has to wait: a host that may be sent nothing or refuses the write (log 33), a
port at which flits of the print still wait (R292). `r` is the print after them. -/
def printOut (s : State) (p : Nat) (r : PrintRun) (b : List Byte) : Option State :=
  let q := getPart s p
  let w := partReg q 0x180
  if bit w 1 then
    let l := fld w 5 2
    let k := getLnk s l
    if printQueued k then none
    else
      let all := r.rest ++ b
      let n := all.length / 240
      some (setPrint (setLnk s l { k with txq := k.txq ++ printItems r.flits (pieces 240 n all) }) p { r with rest := all.drop (240 * n), flits := r.flits + n })
  else
    let who : Who := { pid := p, cl := 0, stn := false }
    let ws := [(fld (partReg q 0x188) 19 0 * 2 ^ 21 + r.pos, b)]
    if !(hostOpen s p) || (writeFail s who 3 ws).isSome then none
    else some (setPrint (tierPut s who 3 ws) p { r with pos := r.pos + b.length })

/-- A piece of the image, read by `get`, goes on: what it needs of the host is read first (R301); `lp` are its LPDDR6 bytes, and `ecc` what the burst
code finds in them (R194). `r` is the print after it. -/
def printPiece (s : State) (p : Nat) (r : PrintRun) (lp src : List (Nat × Nat)) (ecc : Ecc) (get : State → Except RlFail (List Byte)) : State :=
  match get s with
  | .error _ => s
  | .ok b =>
    if (printOut s p r b).isNone then s
    else
      let z := engineRead s p 0 (hostPieces s p src ++ runPieces s p (sectorRuns (printParts s p r b)))
      if !z.2 then z.1
      else
        let s1 := eccRead (ddLoad z.1 (.hub 0) p 2 lp) p lp ecc
        match get s1 with
        | .error _ => s1
        | .ok b => (printOut s1 p r b).getD s1

/-- Every record has been copied: the last flit and the wait for the port; or the completion records, one for each region, while the host
write ring has room (R306). -/
def printLast (s : State) (p o : Nat) (r : PrintRun) : State :=
  let q := getPart s p
  let w := partReg q 0x180
  if bit w 1 then
    let l := fld w 5 2
    let k := getLnk s l
    if printQueued k then s
    else if r.rest.isEmpty then printEnd s p o
    else setPrint (setLnk s l { k with txq := k.txq ++ printItems r.flits [r.rest] }) p { r with rest := [], flits := r.flits + 1 }
  else match r.regions with
    | x :: xs =>
      if !(hwrOn q) then printEnd s p o
      else if hwrRoom q = 0 then s
      else hwrPost (setPrint s p { r with regions := xs }) p 1 (leBytes 2 o ++ leBytes 1 x.1 ++ leBytes 1 x.2 ++ leBytes 4 (regCount (getMc s x.1) x.2))
    | [] => printEnd s p o

/-- PRINT_DONE (R247): the engine's next piece of work: the manifest, the next record, a completion record, the end. What cannot be read or written
now waits (log 33: DEDUCED; log 117: DESIGN CHOICE). -/
def execPrintDone (p : PartIx) (ecc : Ecc) (s : State) : Out :=
  match (getPart s p.val).step.print with
  | none => .next s
  | some r =>
    let o := fld (partReg (getPart s p.val) 0x184) 15 0
    match r.head, r.todo with
    | some b, _ => .next (printPiece s p.val { r with head := none } [] [] ecc (fun _ => .ok b))
    | none, (m, g, i) :: l =>
      .next (printPiece s p.val { r with todo := l } (recordRanges (getMc s m) g i) (recordHost (getMc s m) g i) ecc (fun t => wholeRecord t p.val (getMc t m) g i))
    | none, [] => .next (printLast s p.val o r)

/-! ### The proof (R350, R351) -/
/-- R350: the record digest, over the cache, the master and the moments of the effective slot. -/
def recordDigest (s : State) (p m r : Nat) (b : List Byte) : Nat :=
  let k := getMc s m
  let n := 1 + regM k r
  let sl := effectiveSlot (w32 (leNat (b.take 4))) (updLast s m p)
  let at_ := fun (a n : Nat) => (b.drop a).take n
  crc64 (at_ (0x800 + 0x800 * sl) 0x800 ++ (List.range n).flatMap (fun i => at_ (0x2000 + (sl * n + i) * 0x1000) 0x1000))

/-- The table. -/
def proofTable (s : State) (p : Nat) (ids : List (Nat × Nat × Nat)) (recs : List (List Byte)) : List Byte :=
  leBytes 4 (fld (partReg (getPart s p) 0x118) 17 0) ++ leBytes 4 ids.length ++ List.replicate 56 0 ++
    (ids.zip recs).flatMap (fun x => leBytes 8 (recordDigest s p x.1.1 x.1.2.1 x.2) ++ leBytes 4 x.1.2.2 ++ leBytes 1 (x.1.1 + x.1.2.1 * 16) ++ List.replicate 3 0)

/-- Pages of a table of n entries. -/
def proofPages (n : Nat) : Nat := (64 + 16 * n + 2 ^ 21 - 1) / 2 ^ 21

/-- R351: the lowest reason that applies (R366). -/
def proofCheck (s : State) (p : Nat) (cmp : Bool) : Nat :=
  let q := getPart s p
  let n := proofPages (allRecords s p).length
  if !(validRun s p 2 (fld (partReg q 0x204) 17 0) n) || (cmp && !(validRun s p 2 (fld (partReg q 0x208) 17 0) n)) then 0x02
  else if bit (partReg q 0x114) 16 || bit (partReg q 0x184) 17 || bit (partReg q 0x20C) 0 then 0x0D else 0

def proofCtlWrite (s : State) (p : Nat) (v : Word) : State :=
  let q := getPart s p
  let new := mwApply 3 (partReg q 0x200) v
  let q1 := q.setReg 0x200 (new &&& 2#32)
  let st := partReg q 0x20C
  if bit new 0 then
    let c := proofCheck s p (bit new 1)
    setPart s p (q1.setReg 0x20C (if c = 0 then setFld (setBit (setBit st 0 true) 2 false) 31 24 0 else setFld st 31 24 c))
  else setPart s p q1

/-- PART_PROOF_CTL_START (R351). -/
def execPartProofCtlStart (fn : Fn) (p : PartIx) (v : Word) (s : State) : Out :=
  .next (partGuard s fn p.val 0x200 (proofCtlWrite s p.val v))

/-- Numbers of the entries that differ from the reference. -/
def proofMisses (n : Nat) (t ref : List Byte) : List Nat :=
  (List.range n).filter (fun i => (t.drop (64 + 16 * i)).take 16 != (ref.drop (64 + 16 * i)).take 16)

/-- The digests, the table, the comparison. -/
def proofRun (s0 : State) (p : Nat) (ids : List (Nat × Nat × Nat)) (ecc : Ecc) : State :=
  let q := getPart s0 p
  let st := partReg q 0x20C
  let w : Who := { pid := p, cl := 0, stn := true }
  let cmp := bit (partReg q 0x200) 1
  let len := 64 + 16 * ids.length
  let s := eccRead s0 p (ids.flatMap (fun x => recordRanges (getMc s0 x.1) x.2.1 x.2.2) ++ (if cmp then [(fld (partReg q 0x208) 17 0 * 2 ^ 21, len)] else [])) ecc
  let ref := if cmp then tierRead s w 2 (fld (partReg q 0x208) 17 0 * 2 ^ 21) len else .ok []
  match wholeRecords s p ids, ref with
  | .ok recs, .ok rf =>
    let t := proofTable s p ids recs
    let ws := [(fld (partReg q 0x204) 17 0 * 2 ^ 21, t)]
    match writeFail s w 2 ws with
    | some _ => s
    | none =>
      let miss := if cmp then proofMisses ids.length t rf else []
      let good := cmp && miss.isEmpty && t.take 64 == rf.take 64
      let sum := crc64 t
      let s1 := tierPut s w 2 ws
      let q1 := getPart s1 p
      let q2 := (q1.setReg 0x20C (setBit (setBit (setBit st 0 false) 1 true) 2 good)).setReg 0x210 (w32 miss.length)
      setPart s1 p (((q2.setReg 0x214 (w32 (miss.headD 0))).setReg 0x218 (w32 sum)).setReg 0x21C (w32 (sum / 2 ^ 32)))
  | _, _ => s

/-- PROOF_DONE (R351); the state of SPLIT records is read from the host first (R301); `ecc` is what the burst code finds. (log 28: DEDUCED.) -/
def execProofDone (p : PartIx) (ecc : Ecc) (s : State) : Out :=
  let q := getPart s p.val
  let ids := allRecords s p.val
  if !(bit (partReg q 0x20C) 0) then .next s
  else
    let z := engineRead s p.val 1 (hostPieces s p.val (ids.flatMap (fun x => recordHost (getMc s x.1) x.2.1 x.2.2)))
    if !z.2 then .next z.1 else .next (proofRun z.1 p.val ids ecc)

end Sys2Proof.Machine
end

