-- ==== Sys2Proof/Machine/Entries.lean ====
section
/-! DEFINITION. Station entries (R28 to R30, R58, R115, R372), the resume of a core (R90), the switch enables (R116), the NaN record
(R164, R166). -/
namespace Sys2Proof.Machine

/-! ### Entries -/
/-- The cores of an entry, in rank order: ranges of cores below 5,120. -/
def entRange (q : Part) (e k : Nat) : Nat × Nat := let w := entWord q e (0x40 + 4 * k); (fld w 12 0, fld w 25 13)
def entRanges (q : Part) (e : Nat) : List (Nat × Nat) := ((List.range 8).map (entRange q e)).filter (fun r => r.2 != 0)
def entCores (q : Part) (e : Nat) : List Nat :=
  ((entRanges q e).flatMap (fun r => (List.range r.2).map (fun i => r.1 + i))).mergeSort (fun a b => decide (a ≤ b))
def entCtx (q : Part) (e : Nat) : Nat := fld (entWord q e 0) 2 1

/-- Two ranges share a core. -/
def rangesOverlap : List (Nat × Nat) → Bool
  | [] => false
  | r :: rs => rs.any (fun t => decide (r.1 < t.1 + t.2) && decide (t.1 < r.1 + r.2)) || rangesOverlap rs

/-! ### Bindings (R372) -/
def binding (q : Part) (e : Nat) (out : Bool) (n : Nat) : Word := entWord q e ((if out then 0x80 else 0x60) + 4 * n)
def bndValid (w : Word) : Bool := bit w 0
def bndType (w : Word) : Nat := fld w 2 1
def bndSlot (w : Word) : Nat := fld w 7 3
/-- The net of a stream type (R31). -/
def typeNet (t : Nat) : Nat := if t = 1 then 0 else if t = 2 then 1 else 2

/-- The bindings of an entry with their port. -/
def allBindings (q : Part) (e : Nat) : List (Bool × Nat × Word) :=
  (List.range 8).map (fun n => (false, n, binding q e false n)) ++ (List.range 8).map (fun n => (true, n, binding q e true n))

/-- R115: a bound slot without a route of the partition in some core's cluster. -/
def routeMissing (s : State) (p ctx : Nat) (cores : List Nat) (w : Word) : Bool :=
  let net := typeNet (bndType w)
  bndValid w && decide (bndType w ≠ 0) && decide (bndSlot w < netSlots net) &&
    cores.any (fun c => let r := route (getCl s (c / 32)) ctx net (bndSlot w); !(rtValid r) || rtPid r != p)

/-- R58, R372: a declaration and a binding that do not agree. -/
def portBad (k : Core) (ctx : Nat) (out : Bool) (n : Nat) (w : Word) : Bool :=
  let d := decl k ctx out n
  let t := d % 4
  let f32 := d / 4 % 2 == 1
  decide (d / 8 ≠ 0) || (f32 && t != 2) || (bndValid w != (t != 0)) ||
    (bndValid w && (bndType w != t || decide (bndSlot w ≥ netSlots (typeNet t)) || (t != 2 && fld w 17 8 != 0) ||
      (t == 2 && f32 && decide ((fld w 12 8 + 1) * (fld w 17 13 + 1) > 512))))

/-- The image of a context's program region (R30). -/
def programImage (k : Core) (ctx : Nat) : List Byte :=
  (List.range 512).flatMap (fun w => leBytes 8 (tget k.prog (512 * ctx + w) (0 : BitVec 64)).toNat)
/-- The digest that an entry holds (R372). -/
def entDigest (q : Part) (e : Nat) : List Byte := wordsBytes ((List.range 12).map (fun i => entWord q e (0x10 + 4 * i)))

/-- R372: the check of an entry, its reasons in order. -/
def stnCheck (s : State) (p e : Nat) : Nat :=
  let q := getPart s p
  let ctx := entCtx q e
  let cores := entCores q e
  let w := fld (entWord q e 0x8) 15 0
  if !bit q.grants.ctxs ctx then 0x04
  else if (entRanges q e).any (fun r => decide (r.1 + r.2 > 5120)) then 0x06
  else if rangesOverlap (entRanges q e) then 0x01
  else if cores.any (fun c => coreOwner s c != some p) || (allBindings q e).any (fun b => routeMissing s p ctx cores b.2.2) then 0x0E
  else if cores.any (fun c => (ctxOf (getCore s c) ctx).stn.isSome) then 0x03
  else if w = 0 ∨ w > 32768 then 0x0C
  else if cores.any (fun c => digestBytes (sha384 (programImage (getCore s c) ctx)) != entDigest q e) then 0x0B
  else if cores.any (fun c => (allBindings q e).any (fun b => portBad (getCore s c) ctx b.1 b.2.1 b.2.2)) then 0x06
  else 0

/-- R145: banks keep contents and mode over an enable only where another station entry of the core is enabled. -/
def bankEnable (k : Core) (ctx : Nat) : Core :=
  if k.ctxs.any (fun e => e.1 != ctx && e.2.stn.isSome) then k else { k with banks := [] }

/-- A core takes up a station: its descriptors read zero (R91), seed and step are latched (R158, R365; log 109: DEDUCED), and its setup run
starts at once where the context is active (R62). -/
def joinStation (p e ctx n w : Nat) (s : State) (x : Nat × Nat) : State :=
  let k := bankEnable (getCore s x.1) ctx
  let q := getPart s p
  let k1 := k.setCtx ctx { ctxOf k ctx with
    stn := some { part := p, entry := e }, rank := x.2, ncores := n, window := w, needSetup := true, setup := none, mtch := none, rings := [], descs := [],
    step := partReg q 0x108, seed := BitVec.ofNat 64 ((partReg q 0x104).toNat * 2 ^ 32 + (partReg q 0x100).toNat) }
  let s1 := setCore s x.1 k1
  if k1.active = ctx then startSetup s1 x.1 else s1

def entReg (s : State) (p e off : Nat) (f : Word → Word) : State :=
  let q := getPart s p
  setPart s p (q.setReg (0x8000 + e * 0x100 + off) (f (entWord q e off)))

/-- ENABLE goes to 1 (R30). -/
def stnEnable (s : State) (p e : Nat) : State :=
  let q := getPart s p
  let c := stnCheck s p e
  if c = 0 then
    let cores := entCores q e
    let s1 := entReg (entReg s p e 0 (fun w => setBit w 0 true)) p e 4 (fun _ => w32 (1 + cores.length * 2 ^ 16))
    (cores.zip (List.range cores.length)).foldl (joinStation p e (entCtx q e) cores.length (fld (entWord q e 0x8) 15 0)) s1
  else entReg (entReg s p e 0 (fun w => setBit w 0 false)) p e 4 (fun w => setFld w 15 8 c)

/-- R211: a roller request that has failed stands in no queue and no channel; its access is all that is left. -/
def accFailed (s : State) (c : Nat) (a : Access) : Bool :=
  let k := getCore s c
  !(k.mq.any (fun q => q.o.seq == a.seq)) && !(k.vq.any (fun q => q.o.seq == a.seq)) && !(k.rq.any (fun q => q.2.any (fun r => r.o.seq == a.seq))) &&
    !((getCl s (c / 32)).chans.any (fun h => h.2.job.any (fun j => j.core == some c && j.o.seq == a.seq)))

/-- R211: a context's failed requests are discarded, and what waits for them goes on. -/
def dropFailed (s : State) (c ctx : Nat) (k : Core) : Core := { k with accs := k.accs.filter (fun a => !(a.ctx == ctx && accFailed s c a)) }

/-- A core leaves a station: its runs end, its stored tokens go, the trap is cleared (R90, R125). -/
def leaveContext (k : Core) (ctx : Nat) : Core :=
  let k1 := (k.firings.filter (fun f => f.2.ctx == ctx)).foldl (fun k f => endFiring k f.1 f.2) k
  let x := ctxOf k1 ctx
  let k2 := k1.setCtx ctx { x with stn := none, rank := 0, ncores := 0, window := 0, needSetup := false, setup := none, mtch := none, rings := [] }
  let kept : Tbl (List Entry) := k2.stores.map (fun q => (q.1, q.2.filter (fun t => t.ctx != ctx)))
  let k3 := { k2 with stores := kept, traps := tdel k2.traps ctx }
  k3.setReg 0x004 (setFld (setBit (coreReg k3 0x004) 0 false) 23 16 0)
/-- The contexts in which a core serves an entry. -/
def servedCtxs (k : Core) (p e : Nat) : List Nat := (k.ctxs.filter (fun x => x.2.stn == some { part := p, entry := e })).map (·.1)

/-- ENABLE goes to 0 (R90). -/
def stnDisable (s : State) (p e : Nat) : State :=
  let s1 := entReg (entReg s p e 0 (fun w => setBit w 0 false)) p e 4 (fun w => setBit w 0 false)
  (entCores (getPart s p) e).foldl (fun s c =>
    let k := getCore s c
    match servedCtxs k p e with
    | [] => s
    | xs => setCore s c (xs.foldl (fun k x => leaveContext (dropFailed s c x k) x) k)) s1

/-- A masked write of STN_CTL (R363). -/
def stnCtlWrite (s : State) (p e : Nat) (v : Word) : State :=
  let old := entWord (getPart s p) e 0
  let new := mwApply 7 old v
  if bit old 0 && !bit new 0 then entReg (stnDisable s p e) p e 0 (fun w => setFld w 2 1 (fld new 2 1))
  else
    let s1 := entReg s p e 0 (fun w => setFld w 2 1 (fld new 2 1))
    if !bit old 0 && bit new 0 then stnEnable s1 p e else s1

/-- Sealing drops the operator's writes to station entries (R326). -/
def stnCtlGuard (s : State) (fn : Fn) (p e : Nat) (v : Word) : State :=
  guarded s fn (.hub 2) (0x218000 + p * 0x10000 + e * 0x100) (fun pid => ownCheck s pid p true false) (fun pid => sealDrop s p pid (stnCtlWrite s p e v))

/-- STN_CTL_ENABLE (R30). -/
def execStnCtlEnable (fn : Fn) (p : PartIx) (e : Fin 128) (v : Word) (s : State) : Out := .next (stnCtlGuard s fn p.val e.val v)
/-- STN_CTL_DISABLE (R90). -/
def execStnCtlDisable (fn : Fn) (p : PartIx) (e : Fin 128) (v : Word) (s : State) : Out := .next (stnCtlGuard s fn p.val e.val v)

/-! ### CORE_CTL (R90, R330) -/
/-- The run that a hold names, and its name, if it is still there. -/
def heldRun (k : Core) (ctx : Nat) : RunId → Option Run
  | .setup => (ctxOf k ctx).setup
  | .slot n => (tfind k.firings n.val).filter (fun r => r.ctx == ctx)

/-- The core with a run of a context replaced. -/
def putRun (k : Core) (ctx : Nat) (id : RunId) (r : Run) : Core :=
  match id with
  | .setup => k.setCtx ctx { ctxOf k ctx with setup := some r }
  | .slot n => { k with firings := tset k.firings n.val r }

/-- RESUME after SW or BKPT: the trapping run goes on after its instruction; execution past word 511 traps (R71). A firing that met a trap of its
own while the context stood stopped (a refused sync operation, a queued `halo`) was only counted in LOST; it goes on issuing too (log 101:
DEDUCED). -/
def resumeCore (s : State) (c : Nat) : State :=
  let k := getCore s c
  let ctx := fld (coreReg k 0x008) 9 8
  match tfind k.traps ctx with
  | none => s
  | some h =>
    if bit (coreReg k 0x004) 0 && (h.cause == SW || h.cause == BKPT) then
      let k1 := { k with traps := tdel k.traps ctx }
      let k2 := k1.setReg 0x004 (setBit (coreReg k1 0x004) 0 false)
      match heldRun k2 ctx h.run with
      | none => setCore s c k2
      | some r =>
        let e := pastWord r r.pc.toNat
        let s1 := setCore s c (putRun k2 ctx h.run e.1)
        if e.2 then takeTrap s1 c h.run e.1 PC_RANGE 0 else s1
    else s

/-- A write of CORE_CTL; for a sealed partition it needs SAFELIGHT, else it is dropped and counted (R326, R330).
(log 45: DEDUCED.) -/
def coreCtlWrite (s : State) (c : Nat) (v : Word) : State :=
  if !bit (mwApply 1 0 v) 0 then s
  else match coreOwner s c with
    | none => resumeCore s c
    | some p =>
      let q := getPart s p
      if partState s p = SEALED ∧ bit (partReg q 0x10) 3 = false then setPart s p (q.setReg 0x28 (bump 0xFFFFFFFF (partReg q 0x28) 1))
      else resumeCore s c

/-- The firewall in front of a core's page (R140): no owner, another owner, the fixer pass. -/
def coreRefusal (s : State) (c pid : Nat) : Option Nat :=
  let o := coreOwner s c
  firstCode (pidDown s pid || o.any (inPass s)) (o.isNone && pid != 0xF) (pid != 0xF && o != some pid) false

/-- CORE_CTL_RESUME (R90). -/
def execCoreCtlResume (fn : Fn) (c : CoreIx) (v : Word) (s : State) : Out :=
  .next (guarded s fn (.core c.val) 0x0 (coreRefusal s c.val) (fun _ => coreCtlWrite s c.val v))

/-! ### CL_SW_CTL (R116) -/
/-- Registers that a cluster's partitions share: open to any partition that exists and is not in the fixer pass. -/
def sharedRefusal (s : State) (pid : Nat) : Option Nat := firstCode (pidDown s pid) false false false
def swCtlGuard (s : State) (fn : Fn) (cl : Nat) (v : Word) : State :=
  guarded s fn (.cluster cl) 0x100 (sharedRefusal s) (fun _ => setCl s cl (swCtlWrite (getCl s cl) cl v))
/-- CL_SW_CTL_ENABLE (R116). -/
def execClSwCtlEnable (fn : Fn) (cl : ClIx) (v : Word) (s : State) : Out := .next (swCtlGuard s fn cl.val v)
/-- CL_SW_CTL_DISABLE (R116). -/
def execClSwCtlDisable (fn : Fn) (cl : ClIx) (v : Word) (s : State) : Out := .next (swCtlGuard s fn cl.val v)

/-! ### The NaN record (R164, R166) -/
/-- The cores that a partition has been granted. -/
def ownedCores (s : State) (p : Nat) : List Nat :=
  (getPart s p).grants.cores.flatMap (fun e => ((List.range 32).filter (fun i => bit e.2 i)).map (fun i => e.1 * 32 + i))

/-- A write of PART_NAN_CTL: the record block's HALT, and the copy in every core of the partition (log 36).
(log 36: DESIGN CHOICE.) -/
def nanCtlWrite (s : State) (p : Nat) (v : Word) : State :=
  let q := getPart s p
  let new := mwApply 1 (partReg q 0x140) v
  (ownedCores s p).foldl (fun s c => setCore s c { getCore s c with halt := bit new 0 }) (setPart s p (q.setReg 0x140 new))
/-- PART_NAN_CTL_HALT (R164). -/
def execPartNanCtlHalt (fn : Fn) (p : PartIx) (v : Word) (s : State) : Out := .next (partGuard s fn p.val 0x140 (nanCtlWrite s p.val v))

def nanRecWrite (s : State) (p : Nat) (v : Word) : State :=
  let q := getPart s p
  if bit v 31 then setPart s p (q.setReg 0x144 (setBit (partReg q 0x144) 31 false)) else s
/-- PART_NAN_REC0_VALID (R166). -/
def execPartNanRec0Valid (fn : Fn) (p : PartIx) (v : Word) (s : State) : Out := .next (partGuard s fn p.val 0x144 (nanRecWrite s p.val v))

end Sys2Proof.Machine
end

