-- ==== Sys2Proof/Machine/Faults.lean ====
section
/-! DEFINITION. The attestation log (R327, R345) and the fault registers (R339 to R345). -/
namespace Sys2Proof.Machine

/-! ### The attestation log (R327) -/
def L_CREATE : Nat := 1
def L_SEAL : Nat := 2
def L_SL_ATTACH : Nat := 3
def L_SL_DETACH : Nat := 4
def L_MOLT : Nat := 5
def L_IDE_LOST : Nat := 6
def L_IDE_RESTORED : Nat := 7
def L_HOST_KEY_LOAD : Nat := 8
def L_QUOTA_CUT : Nat := 9
def L_GRANT_CHANGE : Nat := 10

/-- An entry is appended; the last 512 are kept; the digest is extended. -/
def logAppend (s : State) (p typ detail : Nat) : State :=
  let k := getPart s p
  let e : BitVec 128 := BitVec.ofNat 128 (k.logCount % 2 ^ 32 + typ * 2 ^ 32 + detail * 2 ^ 64 + fld (partReg k 0x118) 15 0 * 2 ^ 96)
  let l := k.log ++ [e]
  setPart s p { k with log := l.drop (l.length - 512), logCount := k.logCount + 1,
                       logDigest := sha384 (digestBytes k.logDigest ++ leBytes 16 e.toNat) }

/-- The partitions that exist. -/
def created (s : State) : List Nat := (List.range 8).filter (fun p => partState s p != ABSENT)

/-- R345: a MOLT entry for every partition that exists, and REATTEST. Unit kinds: 1 cluster, 2 core, 3 SRAM row, 4 lane, 5 sub-channel. -/
def moltLog (s : State) (kind : Nat) : State :=
  (created s).foldl (fun s p =>
    let s1 := logAppend s p L_MOLT kind
    let k := getPart s1 p
    setPart s1 p (k.setReg 0x10 (setBit (partReg k 0x10) 8 true))) s

/-! ### HUB_FAULT0, HUB_FAULT1, PART_FAULT -/
/-- The first event is logged, later ones are counted; the FAULT cause of the physical function. -/
def hubFault (s : State) (kind unit pids : Nat) (loss uncovered worsen : Bool) : State :=
  let h := s.hub
  let w := hubReg h 0x20
  let h1 :=
    if bit w 31 then h.setReg 0x28 (bump 0xFFFFFFFF (hubReg h 0x28) 1)
    else (h.setReg 0x20 (w32 (kind + b2n loss * 2 ^ 8 + b2n uncovered * 2 ^ 9 + b2n worsen * 2 ^ 10 + 2 ^ 31))).setReg 0x24 (w32 (unit % 65536 + pids % 256 * 2 ^ 16))
  raisePf { s with hub := h1 } 0

/-- An event that affects a partition. -/
def partFault (s : State) (p kind unit : Nat) (uncovered : Bool) : State :=
  let k := getPart s p
  let w := setFld (setFld (partReg k 0x1A0) 15 8 kind) 31 16 unit
  let k1 := k.setReg 0x1A0 (if uncovered then setBit w 1 true else w)
  setPart s p (k1.setReg 0x1A4 (bump 0xFFFFFFFF (partReg k1 0x1A4) 1))

/-- An event for every partition of a list. -/
def partFaults (s : State) (ps : List Nat) (kind unit : Nat) (uncovered : Bool) : State :=
  ps.foldl (fun s p => partFault s p kind unit uncovered) s

/-- The mask of a list of partitions. -/
def pidMask (ps : List Nat) : Nat := (ps.map (fun p => 2 ^ p)).sum

/-! ### Spares (R334, R337) -/
def spareClusters (s : State) : Nat := fld (hubReg s.hub 0x2C) 3 0
def spareCores (s : State) : Nat := fld (hubReg s.hub 0x2C) 12 4
def spareLanes (s : State) : Nat := fld (hubReg s.hub 0x2C) 18 13
/-- One usable spare lane fewer. -/
def loseLane (s : State) : State :=
  { s with hub := s.hub.setReg 0x2C (setFld (hubReg s.hub 0x2C) 18 13 (spareLanes s - 1)) }

/-! ### Units -/
def subUnit (m j : Nat) : Nat := j + m * 16
def laneUnit (l : Nat) (tx : Bool) (lane : Nat) : Nat := l + b2n tx * 16 + lane * 32
def rowPlace : SramRow → Nat
  | .data c _ | .prog c _ | .acc c _ => placeCore c.val
  | .staging cl _ => placeCl cl.val
def rowCluster : SramRow → Nat
  | .data c _ | .prog c _ | .acc c _ => c.val / 32
  | .staging cl _ => cl.val
def rowOwner (s : State) : SramRow → Option Nat
  | .data c _ | .prog c _ | .acc c _ => coreOwner s c.val
  | .staging cl r => stagingOwner s cl.val (r.val / 128)
/-- The partitions that own cores or staging ranges of a cluster. -/
def clusterOwners (s : State) (cl : Nat) : List Nat :=
  (List.range 8).filter (fun p => let g := (getPart s p).grants; tget g.cores cl (0 : BitVec 32) != 0 || tget g.staging cl (0 : BitVec 128) != 0)
/-- The partitions with a frame in a package. -/
def packageUsers (s : State) (m : Nat) : List Nat := (List.range 8).filter (fun p => (getPart s p).pt2.any (fun e => ptValid e.2 && ptPkg e.2 == m))


/-! ### Pending molts (R343, R344) -/
def moltCount (s : State) : State := modHub s (fun h => h.setReg 0x30 (setFld (hubReg h 0x30) 7 0 h.molts.length))
def addMolt (s : State) (u : FaultUnit) : State :=
  if s.hub.molts.contains u then s else moltCount (modHub s (fun h => { h with molts := h.molts ++ [u] }))
/-- R342: a fault cancels the molt of its unit. -/
def cancelMolt (s : State) (u : FaultUnit) : State := moltCount (modHub s (fun h => { h with molts := h.molts.filter (fun v => v != u) }))

/-! ### Molts (R343 to R345) -/
def moltKind : FaultUnit → Nat
  | .cluster _ => 1 | .core _ => 2 | .row _ => 3 | .lane .. => 4 | .sub .. => 5 | .other _ => 0
def unitCode : FaultUnit → Nat
  | .cluster cl => placeCl cl.val
  | .core c => placeCore c.val
  | .row a => rowPlace a
  | .lane l tx n => laneUnit l.val tx n.val
  | .sub m j => subUnit m.val j.val
  | .other _ => 0
/-- The partitions that a unit serves. -/
def unitParts (s : State) : FaultUnit → List Nat
  | .cluster cl => clusterOwners s cl.val
  | .core c => (coreOwner s c.val).toList
  | .row a => (rowOwner s a).toList
  | .lane l _ _ => (portOwner s l.val).toList
  | .sub m _ => packageUsers s m.val
  | .other pids => (List.range 8).filter (fun p => bit pids p)

/-- A molt has completed: DONE, the log entry of the hub with WORSEN, the causes, the attestation log. (log 58: DEDUCED.) -/
def moltDone (s : State) (u : FaultUnit) : State :=
  let s1 := cancelMolt s u
  let s2 := modHub s1 (fun h => h.setReg 0x30 (setFld (hubReg h 0x30) 15 8 (fld (hubReg h 0x30) 15 8 + 1)))
  let s3 := partFaults (hubFault s2 (moltKind u) (unitCode u) 0 false false true) (unitParts s u) (moltKind u) (unitCode u) false
  raisePf (moltLog s3 (moltKind u)) 5


end Sys2Proof.Machine
end

