-- ==== Sys2Proof/Machine/Reduce.lean ====
section
/-! DEFINITION. In-transit reduction (R267 to R274): sinks, sums in rank order, delivery to the update stations. -/
namespace Sys2Proof.Machine

/-! ### Registers (R274) -/
def rgOff (g : Nat) : Nat := 0x2800 + 0x20 * g
def rgCfg (k : Lnk) (g : Nat) : Word := lnkReg k (rgOff g + 4)
def rgLast (k : Lnk) (g : Nat) : Nat := fld (rgCfg k g) 3 0
def rgRank (k : Lnk) (g : Nat) : Nat := fld (rgCfg k g) 7 4
def rgPrev (k : Lnk) (g : Nat) : Nat := fld (rgCfg k g) 11 8
def rgNext (k : Lnk) (g : Nat) : Nat := fld (rgCfg k g) 15 12
def rgGid (k : Lnk) (g : Nat) : Nat := fld (rgCfg k g) 23 16
def rgStep (k : Lnk) (g : Nat) : BitVec 16 := (lnkReg k (rgOff g + 8)).setWidth 16
def rgTiles (k : Lnk) (g : Nat) : Nat := fld (lnkReg k (rgOff g + 0xC)) 16 0
def rgStat (k : Lnk) (g : Nat) : Word := lnkReg k (rgOff g + 0x14)
def rgOn (k : Lnk) (g : Nat) : Bool := bit (rgStat k g) 0
def rgPid (k : Lnk) (g : Nat) : Nat := fld (rgStat k g) 3 1
def rgSink (k : Lnk) (g i : Nat) : Word := lnkReg k (0x2900 + 0x40 * g + 8 * i)
def rgBase (k : Lnk) (g i : Nat) : Nat := fld (lnkReg k (0x2904 + 0x40 * g + 8 * i)) 20 0
def group (k : Lnk) (g : Nat) : RedGroup := tget k.groups g RedGroup.reset
def setGroup (k : Lnk) (g : Nat) (x : RedGroup) : Lnk := { k with groups := tset k.groups g x }
/-- One held cycle (R270). -/
def rgHeld (k : Lnk) (g : Nat) : Lnk := k.setReg (rgOff g + 0x18) (lnkReg k (rgOff g + 0x18) + 1)

/-! ### The store of a home port (R270) -/
/-- Step and tag of a partial or a result, as INFO holds them. -/
def redName (e : RedEntry) : Nat := e.step.toNat + e.tag.toNat * 2 ^ 16
/-- The partials (type 6) or results (type 7) of a group that have not wholly left a port's block: those whose last flit waits. -/
def redWaiting (k : Lnk) (typ gid : Nat) : List Nat :=
  (k.txq.filter (fun i => i.typ == typ && i.info.toNat % 256 == gid && i.info.toNat / 2 ^ 40 % 32 == (if typ = 6 then 17 else 8))).map (fun i => i.info.toNat / 2 ^ 8 % 2 ^ 32)

/-- Entries of a group's local tiles: those that wait for their partial, and those whose sum has not left on NEXT. -/
def groupLocal (s : State) (k : Lnk) (g : Nat) : Nat :=
  let x := group k g
  x.own.length + x.toNext.length + (if rgOn k g && decide (rgRank k g < rgLast k g) then (redWaiting (getLnk s (rgNext k g)) 6 (rgGid k g)).length else 0)
/-- Entries of its results: one each, until it has been both delivered and forwarded. -/
def groupResults (s : State) (k : Lnk) (g : Nat) : Nat :=
  let x := group k g
  let out := x.toPrev.map redName ++ (if rgOn k g && decide (0 < rgRank k g) then redWaiting (getLnk s (rgPrev k g)) 7 (rgGid k g) else [])
  x.results.length + (x.results.foldl (fun w r => w.erase (redName r)) out).length
/-- Entries in use: by local tiles, and in all. -/
def storeLocal (s : State) (l : Nat) : Nat := let k := getLnk s l; ((List.range 4).map (groupLocal s k)).sum
def storeAll (s : State) (l : Nat) : Nat :=
  let k := getLnk s l
  storeLocal s l + ((List.range 4).map (fun g => (group k g).parts.length + groupResults s k g)).sum

/-! ### Arithmetic (R269, R272) -/
def tileEls16 (b : List Byte) : List Word := (List.range 1024).map (fun e => w32 (leNat ((b.drop (2 * e)).take 2)))
def tileEls32 (b : List Byte) : List Word := (List.range 1024).map (fun e => w32 (leNat ((b.drop (4 * e)).take 4)))
/-- widen of rank 0. -/
def redWiden (l : List Word) : List Word := l.map (fun w => (widen false w).1)
/-- One member's addition. -/
def redAdd (p g : List Word) : List Word := (p.zip g).map (fun x => (add32 x.1 (widen false x.2).1).1)
/-- The root's conversion: nearest even. -/
def redConvert (p : List Word) : List Word := p.map (fun w => (convert w 0 0).1)

/-! ### Flits (R279) -/
/-- INFO of RED_PART and RED_RES. -/
def redInfo (gid : Nat) (step : BitVec 16) (tag : Tag) (i : Nat) : BitVec 48 :=
  BitVec.ofNat 48 (gid % 256 + step.toNat * 2 ^ 8 + tag.toNat * 2 ^ 24 + i * 2 ^ 40)
/-- The flits of a partial (binary32, 18) or of a result (binary16, 9). -/
def redItems (res : Bool) (gid : Nat) (e : RedEntry) : List LinkItem :=
  let bytes := e.elems.flatMap (fun w => leBytes (if res then 2 else 4) w.toNat)
  (List.range (if res then 9 else 18)).map (fun i =>
    { vc := res, typ := if res then 7 else 6, info := redInfo gid e.step e.tag i, payload := padFlit ((bytes.drop (240 * i)).take 240) })

def pushItems (s : State) (l : Nat) (is : List LinkItem) : State := let k := getLnk s l; setLnk s l { k with txq := k.txq ++ is }

/-- R273, R293: a port carries traffic of the group's partition. -/
def linkServes (s : State) (l pid : Nat) : Bool :=
  lnkTrained s l && fld (lnkReg (getLnk s (lanesOf s l)) 0x8) 10 8 == pid && !(peerScrub s l)

/-! ### Sums -/
/-- A partial leaves on NEXT, a result on PREV; while that port does not carry the partition's session, the group holds it. -/
def sendPart (s : State) (l g : Nat) (e : RedEntry) : State :=
  let k := getLnk s l
  let x := group k g
  if linkServes s (rgNext k g) (rgPid k g) then pushItems s (rgNext k g) (redItems false (rgGid k g) e)
  else setLnk s l (rgHeld (setGroup k g { x with toNext := x.toNext ++ [e] }) g)
def sendRes (s : State) (l g : Nat) (e : RedEntry) : State :=
  let k := getLnk s l
  let x := group k g
  if rgRank k g = 0 then s
  else if linkServes s (rgPrev k g) (rgPid k g) then pushItems s (rgPrev k g) (redItems true (rgGid k g) e)
  else setLnk s l (rgHeld (setGroup k g { x with toPrev := x.toPrev ++ [e] }) g)

/-- A flit slot of block b: what groups hold for it goes, or counts a held cycle. -/
def releaseGroup (b : Nat) (s : State) (lg : Nat × Nat) : State :=
  let k := getLnk s lg.1
  let x := group k lg.2
  let next := rgOn k lg.2 && rgNext k lg.2 == b && !x.toNext.isEmpty
  let prev := rgOn k lg.2 && rgPrev k lg.2 == b && !x.toPrev.isEmpty
  if !(next || prev) then s
  else if linkServes s b (rgPid k lg.2) then
    let s1 := setLnk s lg.1 (setGroup k lg.2 { x with toNext := if next then [] else x.toNext, toPrev := if prev then [] else x.toPrev })
    pushItems s1 b ((if next then x.toNext.flatMap (redItems false (rgGid k lg.2)) else []) ++ (if prev then x.toPrev.flatMap (redItems true (rgGid k lg.2)) else []))
  else setLnk s lg.1 (rgHeld k lg.2)
def allGroups : List (Nat × Nat) := (List.range 16).flatMap (fun l => (List.range 4).map (fun g => (l, g)))
def releaseReds (s : State) (b : Nat) : State := allGroups.foldl (releaseGroup b) s

/-- A sum with this member's tile is ready: it goes to NEXT, or is the result (R269). -/
def redOut (s : State) (l g : Nat) (e : RedEntry) : State :=
  let k := getLnk s l
  let x := group k g
  if rgRank k g = rgLast k g then
    let r := { e with elems := redConvert e.elems }
    sendRes (setLnk s l (setGroup k g { x with results := x.results ++ [r] })) l g r
  else sendPart (setLnk s l (setGroup k g { x with await := x.await ++ [(e.tag, e.bind)] })) l g e

/-- SINK_TOKEN (R268, R270, R271): the token at the head of a sink's slot. -/
def execSinkToken (lp : LpIx) (g : Fin 4) (b : Fin 8) (s : State) : Out := running s <|
  let k := getLnk s lp.val
  let key := g.val * 8 + b.val
  match tget k.sinkq key [] with
  | [] => .next s
  | t :: ts =>
    let k1 := { k with sinkq := tset k.sinkq key ts }
    if !(rgOn k g.val) then .next s
    else match t.body with
    | .tile false 32 32 bytes =>
      let x := group k g.val
      if x.used.contains (t.tag, b.val) || decide (storeLocal s lp.val ≥ 192) || decide (storeAll s lp.val ≥ 256) then
        .next (setLnk s lp.val (rgHeld k g.val))
      else
        let els := tileEls16 bytes
        let e : RedEntry := { step := rgStep k g.val, tag := t.tag, bind := b.val, elems := els }
        let x1 := { x with used := x.used ++ [(t.tag, b.val)] }
        if rgRank k g.val = 0 then
          .next (redOut (setLnk s lp.val (setGroup k1 g.val x1)) lp.val g.val { e with elems := redWiden els })
        else match x.parts.find? (fun p => p.step == e.step && p.tag == e.tag) with
          | some p => .next (redOut (setLnk s lp.val (setGroup k1 g.val { x1 with parts := x1.parts.erase p })) lp.val g.val { e with elems := redAdd p.elems els })
          | none => .next (setLnk s lp.val (setGroup k1 g.val { x1 with own := x1.own ++ [e] }))
    | _ =>
      let w := rgStat k g.val
      .next (setLnk s lp.val (k1.setReg (rgOff g.val + 0x14) (setFld w 31 16 (fld w 31 16 + 1))))

/-- A partial has come from rank - 1 (R269, R271). -/
def partialIn (s : State) (l g : Nat) (p : RedEntry) : State :=
  let k := getLnk s l
  let x := group k g
  match x.own.find? (fun e => e.step == p.step && e.tag == p.tag) with
  | some e => redOut (setLnk s l (setGroup k g { x with own := x.own.erase e })) l g { e with elems := redAdd p.elems e.elems }
  | none => setLnk s l (setGroup k g { x with parts := x.parts ++ [p] })

/-- A result has come from rank + 1: it is forwarded unchanged and waits for delivery. Its binding is the first that still awaits a
result of its tag (log 35). -/
def resultIn (s : State) (l g : Nat) (r : RedEntry) : State :=
  let k := getLnk s l
  let x := group k g
  let b := ((x.await.find? (fun a => a.1 == r.tag)).map (·.2)).getD 0
  sendRes (setLnk s l (setGroup k g { x with results := x.results ++ [{ r with bind := b }], await := x.await.erase (r.tag, b) })) l g r

/-! ### Delivery (R268, R271) -/
/-- The eight packets of a gradient tile (R227). -/
def gradPackets (pid lp m addr : Nat) (step : BitVec 16) (els : List Word) : List Packet :=
  (List.range 8).map (fun q =>
    { pid := pid, src := .lp lp, dst := .mc m, tid := q,
      body := .grad { pid := pid, addr := addr, q := q, step := step, bytes := ((els.drop (128 * q)).take 128).flatMap (fun w => leBytes 2 w.toNat) } })

/-- A step that the partition's stations take: the open step or the one after it. -/
def stepOpenFor (s : State) (p : Nat) (n : BitVec 16) : Bool :=
  let st := partReg (getPart s p) 0x114
  bit st 16 && (n == st.setWidth 16 || n == st.setWidth 16 + 1)

/-- RESULT_DELIVERY (R271). (log 35: DEDUCED.) -/
def execResultDelivery (lp : LpIx) (g : Fin 4) (s : State) : Out := running s <|
  let k := getLnk s lp.val
  let x := group k g.val
  if !(rgOn k g.val) then .next s
  else match x.results.find? (fun r => stepOpenFor s (rgPid k g.val) r.step) with
  | none => .next (if x.results.isEmpty then s else setLnk s lp.val (rgHeld k g.val))
  | some r =>
    let z := tget x.latch r.bind (0, 0x4000)
    let addr := z.1 + (rgBase k g.val r.bind + r.tag.toNat) * z.2
    let pk := gradPackets (rgPid k g.val) lp.val (fld (rgSink k g.val r.bind) 9 6) addr r.step r.elems
    let x1 := { x with results := x.results.erase r }
    let done := fld (lnkReg k (rgOff g.val + 0x10)) 16 0 + 1
    let k1 :=
      if done = rgTiles k g.val then
        ((setGroup k g.val { x1 with used := [] }).setReg (rgOff g.val + 0x10) 0).setReg (rgOff g.val + 8) ((rgStep k g.val + 1).setWidth 32)
      else (setGroup k g.val x1).setReg (rgOff g.val + 0x10) (w32 done)
    .next { setLnk s lp.val k1 with mesh := s.mesh ++ pk }

/-! ### RG_CTLg (R273, R274) -/
/-- The bindings in use. -/
def rgBinds (k : Lnk) (g : Nat) : List Nat := (List.range 8).filter (fun i => bit (rgSink k g i) 0)

/-- R382, then R273, its reasons in order. (log 129: DEDUCED.) -/
def rgCheck (s : State) (l g pid : Nat) : Nat :=
  let k := getLnk s l
  let last := rgLast k g
  let rk := rgRank k g
  if !locked s (.lp l) then 0x10
  else if rk > last || (last != 0 && (if rk = 0 then rgNext k g != l else rgPrev k g != l)) ||
     (decide (0 < rk) && decide (rk < last) && rgPrev k g == rgNext k g) || rgTiles k g == 0 then 0x06
  else if (rk != 0 && !(lnkTrained s (rgPrev k g))) || (rk != last && !(lnkTrained s (rgNext k g))) then 0x08
  else if (rgBinds k g).any (fun i => (portsAt (lpCluster l)).any (fun a => (List.range 4).any (fun h =>
      (a != l || h != g) && rgOn (getLnk s a) h && (rgBinds (getLnk s a) h).any (fun j => fld (rgSink (getLnk s a) h j) 5 1 == fld (rgSink k g i) 5 1)))) then 0x03
  else if (rgBinds k g).any (fun i =>
      let m := getMc s (fld (rgSink k g i) 9 6)
      !(stnOn m) || stnPid m != pid || !(regOn m (fld (rgSink k g i) 11 10))) then 0x0E
  else 0

/-- R268: what ENABLE latches. -/
def rgLatch (s : State) (k : Lnk) (g : Nat) : Tbl (Nat × Nat) :=
  (rgBinds k g).map (fun i =>
    let m := getMc s (fld (rgSink k g i) 9 6)
    let r := fld (rgSink k g i) 11 10
    (i, (regBase m r, regPitch m r)))

/-- Tokens that waited at the sinks of a group that stops have no consumer any more (R409). -/
def dropSinks (s : State) (l g : Nat) : State :=
  let k := getLnk s l
  let n := ((List.range 8).map (fun i => (tget k.sinkq (g * 8 + i) []).length)).sum
  let s1 := setLnk s l { k with sinkq := k.sinkq.filter (fun q => q.1 / 8 != g) }
  if n = 0 then s1 else raisePart (setCl s1 (lpCluster l) ((getCl s1 (lpCluster l)).misroute n)) (rgPid k g) 2

/-- Partials and results of a group that wait for a flit slot are store entries, and go with them. -/
def dropReds (s : State) (l g : Nat) : State :=
  let k := getLnk s l
  let keep := fun (typ : Nat) (k2 : Lnk) => { k2 with txq := k2.txq.filter (fun i => !(i.typ == typ && i.info.toNat % 256 == rgGid k g)) }
  let s1 := if decide (rgRank k g < rgLast k g) then setLnk s (rgNext k g) (keep 6 (getLnk s (rgNext k g))) else s
  if decide (0 < rgRank k g) then setLnk s1 (rgPrev k g) (keep 7 (getLnk s1 (rgPrev k g))) else s1

/-- A masked write of RG_CTLg. -/
def rgCtlWrite (s0 : State) (l g pid : Nat) (v : Word) : State :=
  let old := lnkReg (getLnk s0 l) (rgOff g)
  let new := mwApply 1 old v
  let s := if bit old 0 && !(bit new 0) then dropReds s0 l g else s0
  let k := getLnk s l
  let st := rgStat k g
  if bit old 0 && !(bit new 0) then
    dropSinks (setLnk s l ((setGroup k g RedGroup.reset).setReg (rgOff g) new |>.setReg (rgOff g + 0x14) (setBit st 0 false))) l g
  else if !(bit old 0) && bit new 0 then
    let c := rgCheck s l g pid
    if c = 0 then
      let k1 := (k.setReg (rgOff g) new).setReg (rgOff g + 0x14) (setFld (setFld (setBit st 0 true) 3 1 pid) 15 8 0)
      setLnk s l ((setGroup k1 g { RedGroup.reset with latch := rgLatch s k g }).setReg (rgOff g + 0x10) 0)
    else setLnk s l (k.setReg (rgOff g + 0x14) (setFld st 15 8 c))
  else s

/-- The firewall in front of a group's registers (R141, R273). -/
def rgRefusal (s : State) (l g : Nat) (typ : Bool) (pid : Nat) : Option Nat :=
  let k := getLnk s l
  ownCheck s pid (lastOwner k.regs (rgOff g + 0x14) (rgPid k g)) (rgOn k g) (pid == 0xF && typ)

def rgCtlGuard (s : State) (fn : Fn) (l g : Nat) (v : Word) : State :=
  guarded s fn (.lp l) (rgOff g) (rgRefusal s l g (mwStaysOn (lnkReg (getLnk s l) (rgOff g)) v)) (fun pid => rgCtlWrite s l g pid v)

/-- RG_CTL_ENABLE (R273). -/
def execRgCtlEnable (fn : Fn) (lp : LpIx) (g : Fin 4) (v : Word) (s : State) : Out := .next (rgCtlGuard s fn lp.val g.val v)
/-- RG_CTL_DISABLE (R274). -/
def execRgCtlDisable (fn : Fn) (lp : LpIx) (g : Fin 4) (v : Word) (s : State) : Out := .next (rgCtlGuard s fn lp.val g.val v)

end Sys2Proof.Machine
end

