-- ==== Sys2Proof/Machine/Links.lean ====
section
/-! DEFINITION. The peer links (R275 to R294): flits, retry and credit, groups, training, sparing, rekey, print receive. -/
namespace Sys2Proof.Machine

/-! ### LNK_STAT (R294) -/
def lst (k : Lnk) : Nat := fld (lnkReg k 0x8) 3 0
def lpid (k : Lnk) : Nat := fld (lnkReg k 0x8) 10 8
def lnkOn (k : Lnk) : Bool := bit (lnkReg k 0x0) 0
def Lnk.stat (k : Lnk) (hi lo v : Nat) : Lnk := k.setReg 0x8 (setFld (lnkReg k 0x8) hi lo v)
def Lnk.count (k : Lnk) (off n : Nat) : Lnk := k.setReg off (lnkReg k off + w32 n)
def modLnk (s : State) (l : Nat) (f : Lnk → Lnk) : State := setLnk s l (f (getLnk s l))
/-- The block that the lanes of a port serve (R290). -/
def servedBlock (s : State) (l : Nat) : Nat :=
  let k := getLnk s l
  if bit (lnkReg k 0x8) 11 then fld (lnkReg k 0x4) 19 16 else l
def lnkFixed (s : State) (k : Lnk) : Bool := bit (partReg (getPart s (lpid k)) 0x10) 6

/-! ### Alternates (R290) -/
/-- A port holds a session, be it in RETRAIN (log 34); FAILED leads to DISABLED only. -/
def inSession (k : Lnk) : Bool := !k.keys.tx.isEmpty && lst k != 0 && lst k != 8
/-- ALTACT of one port follows its state and its primary's: it begins in ACTIVE and lasts as long as the port's own session. -/
def updateAlt (s : State) (l : Nat) : State :=
  let k := getLnk s l
  let c := lnkReg k 0x4
  let p := lst (getLnk s (fld c 19 16))
  let now := bit (lnkReg k 0x8) 11
  let new := bit c 20 && (if now then inSession k else lst k == 6 && (p == 0 || p == 8))
  if new = now then s else setLnk s l (k.stat 11 11 (b2n new))
def updateAlts (s : State) : State := (List.range 16).foldl updateAlt s

/-! ### RETRAIN and FAILED (R286) -/
/-- The interrupts of a port that enters RETRAIN or FAILED (R304, R370). -/
def raiseLink (s : State) (l : Nat) : State := updateAlts (raisePart (raisePf s 3) (lpid (getLnk s l)) 11)
def failLink (s : State) (l code : Nat) : State := raiseLink (modLnk s l (fun k => (k.stat 3 0 8).stat 27 24 code)) l
/-- An entry into RETRAIN; whether a fourth one falls within 1 s is left open (log 5). -/
def enterRetrain (s : State) (l : Nat) : State :=
  let k := getLnk s l
  let s1 := setLnk s l { k.stat 3 0 7 with retrains := k.retrains + 1 }
  if k.retrains < 3 then raiseLink s1 l
  else
    let f := takeFree 1 s1
    if f.1 = 1 then failLink f.2 l 5 else raiseLink f.2 l

/-! ### CTRL flits -/
/-- Kind and values of a CTRL flit. -/
def Ctrl.nums : Ctrl → Nat × List Nat
  | .ident node domain port => (0, [node, domain, port])
  | .share fixed n => (1, [b2n fixed, n])
  | .laneFault lane => (2, [lane])
/-- A CTRL flit: R279 gives its control code no values and its payload no layout, so both are open (log 40: DESIGN CHOICE). -/
def ctrlItem (c : Ctrl) : LinkItem :=
  { vc := false, typ := 1, info := (Config.ctrlCode c.nums.1).setWidth 48, payload := padFlit ((Config.ctrlBody c.nums.1 c.nums.2).take 240) }
def sendCtrl (s : State) (l : Nat) (c : Ctrl) : State := modLnk s l (fun k => { k with txq := k.txq ++ [ctrlItem c] })

/-! ### Rekey (R284, R285) -/
/-- Replay-protected counter 2 takes its next value before a FIXED agreement (R284). -/
def takeSession (s : State) (fixed : Bool) : State :=
  if fixed then { s with hub := { s.hub with rot := { s.hub.rot with sessions := s.hub.rot.sessions + 1 } } } else s
def sessionsOut (s : State) (fixed : Bool) : Bool := fixed && s.hub.rot.sessions == 0xFFFFFFFF#32

/-- This end's part in a key agreement: its session number, which counter 2 gives, or an ephemeral key from the DRBG, goes out in a CTRL flit.
With counter 2 spent, a FIXED agreement has no part. -/
def beginAgree (s : State) (l : Nat) : State :=
  let fixed := lnkFixed s (getLnk s l)
  if sessionsOut s fixed then modLnk s l (fun k => { k with keys := { k.keys with mine := none } })
  else
    let s1 := takeSession s fixed
    let n := if fixed then s1.hub.rot.sessions.toNat else s.free
    let s2 := if fixed then s1 else (random s1).2
    sendCtrl (modLnk s2 l (fun k => { k with keys := { k.keys with mine := some n } })) l (.share fixed n)

/-- What the agreement gives: keys and salts of the transmit and the receive direction. HKDF's info holds, in FIXED mode, both session numbers,
that of the lower end first. -/
def agreed (s : State) (l : Nat) (far : FarSecure) : DirKey × DirKey :=
  let k := getLnk s l
  let fixed := lnkFixed s k
  let n := k.keys.mine.getD 0
  let secret := if fixed then Config.ecdhStatic far.pub else Config.ecdhFresh n far.pub
  let low := decide (fld (hubReg s.hub 0x8) 15 0 * 16 + l < fld (lnkReg k 0xC) 15 0 * 16 + fld (lnkReg k 0xC) 27 24)
  let info := if fixed then (if low then [n, far.session.toNat] else [far.session.toNat, n]) else []
  let dir := fun (b : Bool) => let w := Config.linkKey secret info b; ({ key := w.setWidth 256, salt := (w >>> 256).setWidth 32 } : DirKey)
  (dir low, dir (!low))

/-- The keys of a session that begins stand in slot 0; those of a rekey, or of a session that goes on, in the slot that is not in use (R285). -/
def LinkKeys.begin_ (x : LinkKeys) (d : DirKey × DirKey) : LinkKeys := { LinkKeys.none_ with tx := [(0, d.1)], rx := [(0, d.2)], mine := x.mine }
def LinkKeys.load (x : LinkKeys) (slot : Nat) (d : DirKey × DirKey) : LinkKeys :=
  { x with tx := tset x.tx slot d.1, rx := tset x.rx slot d.2, rxNew := some slot, rekey := false, fresh := true }
/-- The transmit slot that is not in use. -/
def otherSlot (k : Lnk) : Nat := 1 - fld (lnkReg k 0x8) 13 13

/-- A rekey starts. -/
def startRekey (s : State) (l : Nat) : State :=
  beginAgree (modLnk s l (fun k => { k with keys := { k.keys with rekey := true, due := false } })) l

/-- LNK_CTL.REKEY written as 1; the lowest code where several reasons apply (R366). -/
def rekeyWrite (s : State) (l : Nat) : State :=
  let k := getLnk s l
  let c := if sessionsOut s (lnkFixed s k) then 0x05 else if lst k ≠ 6 then 0x08 else if k.fault.isSome || k.keys.rekey then 0x0D else 0
  if c = 0 then startRekey s l else setLnk s l (k.stat 23 16 c)

/-- A rekey that the port starts on its own; it waits while a lane is spared. -/
def autoRekey (s : State) (l : Nat) : State :=
  let k := getLnk s l
  if lst k ≠ 6 || k.keys.rekey || sessionsOut s (lnkFixed s k) || inPass s (lpid k) then s
  else if k.fault.isSome then setLnk s l { k with keys := { k.keys with due := true } }
  else startRekey s l

/-- REKEY_COUNTER (R285): the port rekeys on its own. -/
def execRekeyCounter (lp : LpIx) (s : State) : Out := .next (autoRekey s lp.val)

/-- The group counter would reach 2^32 with the next group under this key (R285). -/
def keySpent (k : Lnk) : Bool := !k.keys.fresh && k.grpTx == 0 && decide (k.keys.ctr.toNat ≥ 2 ^ 32 - 1)

/-! ### Sparing (R288) -/
def rxSpared (k : Lnk) : Bool := fld (lnkReg k 0x8) 6 4 != 7
def txSpared (k : Lnk) : Bool := bit (lnkReg k 0x8) 7
/-- Steps 2 to 5 begin on a receive lane: LANE_FAULT goes in a CTRL flit, or in the spare lane's frame markers if the reverse direction is down. -/
def startSpare (s : State) (l lane : Nat) (down : Bool) : State :=
  let s1 := modLnk s l (fun k => { k with fault := some lane })
  if down then { s1 with outbox := s1.outbox ++ [.marker l lane] } else sendCtrl s1 l (.laneFault lane)

/-- LNK_CTL.SPARE written as 1; a port that is not ACTIVE has no lane in service, and the write changes nothing.
(log 43: DEDUCED.) -/
def spareWrite (s : State) (l lane : Nat) : State :=
  let k := getLnk s l
  let c := if rxSpared k || k.fault.isSome || bit k.spareBad 0 then 0x09 else if k.keys.rekey then 0x0D else 0
  if c ≠ 0 then setLnk s l (k.stat 23 16 c) else if lst k ≠ 6 then s else startSpare s l lane false

/-- A lane fault whose spare is not usable, or that is not covered: UNCOVERED for the port's owner; the port, unless it is off, fails (SECOND_LANE). -/
def laneUncovered (s : State) (l u : Nat) : State :=
  let s1 := partFaults (hubFault s 4 u 0 false true false) (portOwner s l).toList 4 u true
  if lst (getLnk s l) = 0 then s1 else failLink s1 l 6
def rxLane (lp : LpIx) (lane : Fin 4) : FaultUnit := .lane lp false lane

/-- LANE_FAULT_DECLARED (R288, step 1 and 2; R340 where the spare is not usable). A molt of the lane is cancelled (R342); where it had begun, the
spare is already on its way to this lane. -/
def execLaneFaultDeclared (lp : LpIx) (lane : Fin 4) (down : Bool) (s : State) : Out :=
  let l := lp.val
  let k := getLnk s l
  let u := laneUnit l false lane.val
  let s0 := cancelMolt s (rxLane lp lane)
  let molts := k.fault == some lane.val && s.hub.molts.contains (rxLane lp lane)
  if lst k ≠ 6 then .next s
  else if rxSpared k || (k.fault.isSome && !molts) || bit k.spareBad 0 then .next (laneUncovered s0 l u)
  else
    let s1 := partFaults (hubFault s0 4 u 0 false false false) (portOwner s l).toList 4 u false
    .next (modLnk (startSpare s1 l lane.val down) l (fun k => { k with deaf := true }))

/-- LANE_FAULT (R288, step 3): the transmit direction takes its spare, if it is usable (R340). A lane that the spare carries already has moved
(log 42: DEDUCED); a molt of the lane is cancelled (R342). -/
def execLaneFault (lp : LpIx) (lane : Fin 4) (s : State) : Out :=
  let k := getLnk s lp.val
  let s0 := cancelMolt s (.lane lp true lane)
  if lst k ≠ 6 || k.txLane == some lane.val then .next s
  else if txSpared k || bit k.spareBad 1 then .next (laneUncovered s0 lp.val (laneUnit lp.val true lane.val))
  else .next (moltLog (loseLane (setLnk s0 lp.val { k.stat 7 7 1 with txLane := some lane.val })) 4)

/-- Resending starts from the oldest flit that is not acknowledged (R280, R288). -/
def resendAll (k : Lnk) : Lnk := { k with resend := if k.replay.isEmpty then none else some 0 }

/-- LOCK_REGAINED (R288, steps 4 and 5: both ports resend, the far one on NAK; R285). -/
def execLockRegained (lp : LpIx) (s : State) : Out :=
  let k := getLnk s lp.val
  match k.fault with
  | none => .next s
  | some lane =>
    let s0 := loseLane (setLnk s lp.val { resendAll (k.stat 6 4 lane) with fault := none, deaf := false, nakDue := true })
    let u := rxLane lp ⟨lane % 4, Nat.mod_lt _ (by decide)⟩
    let s1 := if s.hub.molts.contains u then moltDone s0 u else moltLog s0 4
    .next (if k.keys.due then autoRekey s1 lp.val else s1)

/-! ### Training (R286, R289) -/
def lanes (m : BitVec 5) : Nat := ((List.range 5).filter (fun i => bit m i)).length

/-- DETECT: a port in RETRAIN leaves for DETECT; one that waits in DETECT sees at least 4 lanes of each direction. -/
def execDetect (lp : LpIx) (rx tx : BitVec 5) (s : State) : Out :=
  let k := getLnk s lp.val
  if lst k = 7 then .next (setLnk s lp.val (k.stat 3 0 1))
  else if lst k = 1 ∧ lanes rx ≥ 4 ∧ lanes tx ≥ 4 then .next (setLnk s lp.val (k.stat 3 0 2)) else .next s

/-- The data lane that the spare takes, if the spare works and one data lane does not. -/
def lostLane (m : BitVec 5) : Option Nat := (List.range 4).find? (fun i => !bit m i)
/-- Usable spare lanes of a port: not in use, self-test passed. -/
def freeSpares (k : Lnk) : Nat := b2n (!(rxSpared k) && !bit k.spareBad 0) + b2n (!(txSpared k) && !bit k.spareBad 1)

/-- EQUALISE: lanes that work, bit 4 the spare; one that failed its self-test is out of use until the next boot (R337). -/
def execEqualise (lp : LpIx) (rx0 tx0 : BitVec 5) (s : State) : Out :=
  let l := lp.val
  let k := getLnk s l
  let rx := setBit rx0 4 (bit rx0 4 && !bit k.spareBad 0)
  let tx := setBit tx0 4 (bit tx0 4 && !bit k.spareBad 1)
  if lst k ≠ 2 then .next s
  else if lanes rx < 4 ∨ lanes tx < 4 then .next (failLink s l 1)
  else
    let k1 := ((k.stat 6 4 ((lostLane rx).getD 7)).stat 7 7 (b2n (lostLane tx).isSome)).stat 3 0 3
    let k2 := { k1 with spareBad := setBit (setBit k.spareBad 0 (!bit rx 4)) 1 (!bit tx 4), txLane := lostLane tx, fault := none, deaf := false }
    let n := spareLanes s + freeSpares k2 - freeSpares k
    .next { setLnk s l k2 with hub := s.hub.setReg 0x2C (setFld (hubReg s.hub 0x2C) 18 13 n) }

/-- ALIGN: frame markers lock (R277); the port enters IDENT and presents HUB_NODE and its own index (R289). -/
def execAlign (lp : LpIx) (s : State) : Out :=
  let k := getLnk s lp.val
  let w := hubReg s.hub 0x8
  if lst k = 3 then .next (sendCtrl (setLnk s lp.val { k.stat 3 0 4 with frame := [], frames := 0 }) lp.val (.ident (fld w 15 0) (fld w 23 16) lp.val)) else .next s

/-- IDENT (R289, R290); the port that enters SECURE begins the key agreement (R284). -/
def execIdent (lp : LpIx) (node : BitVec 16) (domain : BitVec 8) (port : BitVec 4) (s : State) : Out :=
  let l := lp.val
  let k := getLnk s l
  let c := lnkReg k 0x4
  if lst k ≠ 4 then .next s
  else
    let ok := fld c 15 0 == node.toNat || (fld c 15 0 == 0xFFFF && !bit c 20)
    let k1 := k.setReg 0xC (w32 (node.toNat + domain.toNat * 2 ^ 16 + port.toNat * 2 ^ 24 + b2n ok * 2 ^ 28))
    if ok then .next (beginAgree (setLnk s l (k1.stat 3 0 5)) l)
    else if bit c 20 then .next (setLnk s l (k1.stat 3 0 1))
    else .next (failLink (setLnk s l k1) l 2)

/-- SECURE (R284 to R286): the first agreement of a session, or in ACTIVE the end of a rekey. A rekey whose far identity does not
verify changes nothing. After a RETRAIN, at two ends that hold their session still, flits wait under the old keys, which are resent as they were
(R280): the new keys come into the other slot (log 34: DEDUCED). No keys come while the port's partition is in the pass (R293). -/
def execSecure (lp : LpIx) (far : FarSecure) (s : State) : Out :=
  let l := lp.val
  let k := getLnk s l
  let fixed := lnkFixed s k
  if inPass s (lpid k) then .next s
  else if lst k = 5 then
    if far.fixed ≠ fixed || (fixed && k.keys.mine.isNone) then .next (failLink s l 3)
    else if !far.sigOk then .next (failLink s l 4)
    else
      let d := agreed s l far
      let k1 := if far.held && !k.keys.tx.isEmpty then { k with keys := k.keys.load (otherSlot k) d }
        else { (k.stat 13 13 0).stat 11 11 0 with keys := k.keys.begin_ d }
      .next (updateAlts (setLnk s l (k1.stat 3 0 6)))
  else if lst k = 6 then
    if far.fixed ≠ fixed || !far.sigOk || (!k.keys.rekey && sessionsOut s fixed) then .next s
    else
      let s1 := if k.keys.rekey then s else beginAgree s l
      let d := agreed s1 l far
      .next (modLnk s1 l (fun k => { k with keys := k.keys.load (otherSlot k) d }))
  else .next s

/-! ### LNK_CTL (R287, R294) -/
/-- PM_FLOOR counts an enabled port at 18 W (R380). -/
def floorAdd (s : State) (up : Bool) : State :=
  let w := fld (hubReg s.hub 0x100C) 11 0
  { s with hub := s.hub.setReg 0x100C (setFld (hubReg s.hub 0x100C) 11 0 (if up then w + 18 else w - 18)) }

/-- R287, then R380. -/
def lnkCheck (s : State) (l pid : Nat) : Nat :=
  let c := lnkReg (getLnk s l) 0x4
  let alt := fld c 19 16
  let q := getPart s pid
  if !locked s (.lp l) then 0x10
  else if portOwner s l ≠ some pid then 0x0E
  else if bit c 20 && (alt == l || (List.range 16).any (fun a => let x := lnkReg (getLnk s a) 0x4; a != l && lnkOn (getLnk s a) && bit x 20 && fld x 19 16 == alt)) then 0x03
  else if bit (partReg q 0x10) 6 && partState s pid == SEALED && bit q.policy 1 then 0x05
  else if fld (hubReg s.hub 0x100C) 11 0 + 18 > fld (hubReg s.hub 0x1008) 11 0 then 0x11
  else 0

/-- The transport state of a port that takes a new owner (log 34). (log 34: DEDUCED.) -/
def Lnk.fresh (k : Lnk) : Lnk :=
  { Lnk.reset with regs := k.regs, sync := k.sync, sinkq := k.sinkq, groups := k.groups, spareBad := k.spareBad, cyc := k.cyc }

/-- ENABLE goes to 1. -/
def lnkEnable (s : State) (l pid : Nat) : State :=
  let k := getLnk s l
  let c := lnkCheck s l pid
  if c = 0 then
    let k1 := if lpid k = pid then k else k.fresh
    floorAdd (setLnk s l { ((((k1.setReg 0x0 (setBit (lnkReg k 0x0) 0 true)).stat 3 0 1).stat 10 8 pid).stat 23 16 0).stat 27 24 0 with retrains := 0 }) true
  else setLnk s l ((k.setReg 0x0 (setBit (lnkReg k 0x0) 0 false)).stat 23 16 c)

/-- The session ends: keys go, with them the groups that stand open under them, and what was to be said in CTRL flits. -/
def Lnk.endSession (k : Lnk) : Lnk :=
  { k with keys := LinkKeys.none_, fault := none, deaf := false, grpTx := 0, grpAad := [], grpPlain := [], grpSync := false, grpRx := [],
           txq := k.txq.filter (fun i => i.typ != 1) }

/-- ENABLE goes to 0: the session ends (R286). -/
def lnkDisable (s : State) (l : Nat) : State :=
  updateAlts (floorAdd (modLnk s l (fun k =>
    (((k.setReg 0x0 (setBit (lnkReg k 0x0) 0 false)).stat 3 0 0).stat 13 12 0).endSession)) false)

/-- A masked write of LNK_CTL: LANE, ENABLE, then REKEY and SPARE (R363). -/
def lnkCtlWrite (s : State) (l pid : Nat) (v : Word) : State :=
  let old := lnkReg (getLnk s l) 0x0
  let new := mwApply 0x1F old v
  let s1 := modLnk s l (fun k => k.setReg 0x0 (setFld old 4 3 (fld new 4 3)))
  let s2 := if bit old 0 && !bit new 0 then lnkDisable s1 l else if !bit old 0 && bit new 0 then lnkEnable s1 l pid else s1
  let s3 := if bit new 1 then rekeyWrite s2 l else s2
  if bit new 2 then spareWrite s3 l (fld new 4 3) else s3

/-- The firewall in front of a link port's registers (R141, R287). -/
def lnkRefusal (s : State) (l : Nat) (typ : Bool) (pid : Nat) : Option Nat :=
  let k := getLnk s l
  ownCheck s pid (lastOwner k.regs 0x8 (lpid k)) (lnkOn k) (pid == 0xF && typ)
def lnkCtlGuard (s : State) (fn : Fn) (l : Nat) (v : Word) : State :=
  guarded s fn (.lp l) 0x0 (lnkRefusal s l (mwStaysOn (lnkReg (getLnk s l) 0x0) v)) (fun pid => lnkCtlWrite s l pid v)

/-- LNK_CTL_ENABLE (R287). -/
def execLnkCtlEnable (fn : Fn) (lp : LpIx) (v : Word) (s : State) : Out := .next (lnkCtlGuard s fn lp.val v)
/-- LNK_CTL_DISABLE (R286). -/
def execLnkCtlDisable (fn : Fn) (lp : LpIx) (v : Word) (s : State) : Out := .next (lnkCtlGuard s fn lp.val v)
/-- REKEY (R285). -/
def execRekey (fn : Fn) (lp : LpIx) (v : Word) (s : State) : Out := .next (lnkCtlGuard s fn lp.val v)
/-- SPARE (R288). -/
def execSpare (fn : Fn) (lp : LpIx) (v : Word) (s : State) : Out := .next (lnkCtlGuard s fn lp.val v)

/-- A write to a hub register, which only the physical function reaches. -/
def hubGuard (s : State) (fn : Fn) (off : Nat) (eff : State) : State :=
  guarded s fn (.hub 0) off (fun pid => if pid = 0xF then none else some OWNER_MISMATCH) (fun _ => eff)

/-- HUB_NODE (R289). -/
def hubNodeWrite (s : State) (v : Word) : State :=
  if (List.range 16).all (fun l => lst (getLnk s l) == 0) then { s with hub := s.hub.setReg 0x8 (v &&& 0x00FFFFFF#32) } else s
def execHubNode (fn : Fn) (v : Word) (s : State) : Out := .next (hubGuard s fn 0x8 (hubNodeWrite s v))

/-! ### What a verified flit does (R279, R291, R292) -/
/-- The object that a SYNC_REQ names at the far port. -/
def farObj (b mode o : Nat) : Option ObjRef :=
  if mode = 1 then
    if h : b < 16 ∧ o < 64 then some (.port ⟨b, h.1⟩ ⟨o, h.2⟩) else none
  else if mode = 2 then
    if h : o / 256 < 160 ∧ o % 256 < 128 then some (.hive ⟨o / 256, h.1⟩ ⟨o % 256, h.2⟩) else none
  else none

def opOf (n : Nat) : Option SyncOp :=
  if n = 0 then some .faa else if n = 1 then some .ld else if n = 2 then some .st else if n = 3 then some .wait else if n = 4 then some .bar else none

/-- A SYNC_REQ: the operation arrives at a port object, or leaves over the mesh to a hive; OP 5 cancels. -/
def takeSyncReq (s : State) (b pid : Nat) (f : Flit) : State :=
  let tid := f.info.toNat % 65536
  let at_ := fun (i n : Nat) => leNat ((f.payload.drop i).take n)
  let src : Requester := .far b
  match farObj b (at_ 2 2) (at_ 4 4) with
  | none => modLnk (fwRefuse s (.lp b) pid 4 NOT_MAPPED b (at_ 4 4)) b (fun k => { k with txq := k.txq ++ [syncRspItem tid (.refused NOT_MAPPED)] })
  | some o =>
    let unit := objUnit o
    let mesh := fun (body : Body) => { s with mesh := s.mesh ++ [{ pid := pid, src := .lp b, dst := unitNode unit, tid := tid, body := body }] }
    match opOf (at_ 0 1) with
    | none =>
      if at_ 0 1 = 5 then
        match o with
        | .port _ _ => let y := unitSync s unit; setUnitSync s unit { y with cancels := y.cancels ++ [(src, tid)] }
        | .hive _ _ => mesh (.cancel o src tid)
      else s
    | some op =>
      let q : SyncReq := { src := src, pid := pid, op := op, obj := o, arg := w32 (at_ 8 4), cond := BitVec.ofNat 3 (at_ 1 1), tid := tid, seq := 0, near := false }
      match o with
      | .port _ _ => let y := unitSync s unit; setUnitSync s unit { y with arrived := y.arrived ++ [q] }
      | .hive _ _ => mesh (.sync q)

/-- A SYNC_RSP answers the operation that was forwarded with its TID. -/
def takeSyncRsp (s : State) (b : Nat) (f : Flit) : State :=
  let tid := f.info.toNat % 65536
  let st := leNat (f.payload.take 4)
  let k := getLnk s b
  match tfind k.fwd tid with
  | none => s
  | some q => answerReq (setLnk s b { k with fwd := tdel k.fwd tid }) q (if st = 0 then .val (w32 (leNat ((f.payload.drop 4).take 4))) else .refused st)

/-- The home port and group of a GID for which a port is the side asked. -/
def homeOf (s : State) (b pid gid : Nat) (res : Bool) : Option (Nat × Nat) :=
  (List.range 16).findSome? (fun a => ((List.range 4).find? (fun g =>
    let k := getLnk s a
    rgOn k g && rgPid k g == pid && rgGid k g == gid &&
      (if res then decide (rgRank k g < rgLast k g) && rgNext k g == b else decide (0 < rgRank k g) && rgPrev k g == b))).map (fun g => (a, g)))

/-- The partial or result whose flits have all come. -/
def redEntry (res : Bool) (f : Flit) (bytes : List Byte) : RedEntry :=
  { step := BitVec.ofNat 16 (f.info.toNat / 2 ^ 8), tag := BitVec.ofNat 16 (f.info.toNat / 2 ^ 24), bind := 0,
    elems := if res then tileEls16 bytes else tileEls32 bytes }

/-- The bytes of a partial or a result so far: flit 0 begins one. -/
def redBytes (sofar : List Byte) (f : Flit) : List Byte := (if f.info.toNat / 2 ^ 40 % 32 = 0 then [] else sofar) ++ f.payload

/-- A RED_PART flit; none: the last one waits for a store entry (R270). -/
def takePart (s : State) (b pid : Nat) (f : Flit) : Option State :=
  let k := getLnk s b
  let bytes := redBytes k.redPart f
  if f.info.toNat / 2 ^ 40 % 32 < 17 then some (setLnk s b { k with redPart := bytes })
  else
    let e := redEntry false f bytes
    let s1 := setLnk s b { k with redPart := [] }
    match homeOf s b pid (f.info.toNat % 256) false with
    | none => some (fwRefuse s1 (.lp b) pid 0xA NOT_MAPPED b (f.info.toNat % 256))
    | some (a, g) =>
      if storeAll s a ≥ 256 && !((group (getLnk s a) g).own.any (fun x => x.step == e.step && x.tag == e.tag)) then none
      else some (partialIn s1 a g e)

/-- A RED_RES flit. -/
def takeRes (s : State) (b pid : Nat) (f : Flit) : State :=
  let k := getLnk s b
  let bytes := redBytes k.redRes f
  if f.info.toNat / 2 ^ 40 % 32 < 8 then setLnk s b { k with redRes := bytes }
  else
    let s1 := setLnk s b { k with redRes := [] }
    match homeOf s b pid (f.info.toNat % 256) true with
    | none => fwRefuse s1 (.lp b) pid 0xA NOT_MAPPED b (f.info.toNat % 256)
    | some (a, g) => resultIn s1 a g (redEntry true f bytes)

/-- Bytes of the records of a manifest entry (R220, R248). -/
def entryBytes (w : Word) : Nat := fld w 20 0 * (if fld w 22 21 = 0 then 0x4000 else 0x8000)

/-- Entries and length of a print as far as a PRINT flit tells them: the header is in flit 0, and no entry's count crosses a flit. -/
def printLen (k : Lnk) (n : Nat) (b : List Byte) : Nat × Nat :=
  let cnt := if n = 0 then leNat ((b.drop 4).take 2) else k.prxN
  let lo := 240 * n
  let es := (List.range cnt).filter (fun e => decide (lo ≤ 64 + 32 * e + 4) && decide (64 + 32 * e + 8 ≤ lo + 240))
  let add := (es.map (fun e => entryBytes (w32 (leNat ((b.drop (64 + 32 * e + 4 - lo)).take 4))))).sum
  (cnt, (if n = 0 then 64 + 32 * cnt else k.prxLen) + add)

/-- A PRINT flit; none: it waits for room (R292). -/
def takePrint (s : State) (b pid : Nat) (f : Flit) : Option State :=
  let k := getLnk s b
  let n := f.info.toNat % 2 ^ 32
  let t := printLen k n f.payload
  let stop := min (240 * (n + 1)) t.2
  let who : Who := { pid := pid, cl := 0, stn := false }
  let ws := [(fld (lnkReg k 0x10) 17 0 * 2 ^ 21 + 240 * n, f.payload.take (stop - 240 * n))]
  if stop > fld (lnkReg k 0x14) 17 0 * 2 ^ 21 || (writeFail s who 2 ws).isSome then none
  else
    let s1 := tierPut s who 2 ws
    let done := decide (240 * (n + 1) ≥ t.2) && decide (64 + 32 * t.1 ≤ 240 * (n + 1))
    let w := setFld (lnkReg k 0x18) 17 0 ((stop + 2 ^ 21 - 1) / 2 ^ 21)
    let s2 := modLnk s1 b (fun k => { k.setReg 0x18 (if done then setBit w 31 true else w) with prxN := t.1, prxLen := t.2 })
    some (if done then raisePart s2 pid 9 else s2)

/-- The node that a packet header names (R137). -/
def headerNode (h : List Byte) : Option Node :=
  let w := leNat (h.take 4)
  let kind := w / 2 ^ 12 % 4
  let dst := w / 2 ^ 16 % 65536
  if kind = 0 then
    let cl := dst / 2 ^ 14 * 40 + dst / 2 ^ 8 % 8 * 8 + dst / 2 ^ 11 % 8
    if dst / 2 ^ 8 % 8 ≥ 5 then none else if dst % 256 = 0 then some (.cluster cl) else some (.core (cl * 32 + dst / 8 % 32))
  else if kind = 1 then some (.mc (dst % 16)) else if kind = 2 then some (.lp (dst % 16)) else some (.hub (dst % 16))

/-- The bytes of a packet: as many payload flits as the LEN of its header flit names (R137). -/
def packetBytes (b : List Byte) : List Byte := b.take (32 + 32 * (leNat (b.take 2) / 2 ^ 8 % 16))
/-- A MESH flit: the packet leaves for the unit it names on this module, and never for another port (R291). The first fragment begins a packet.
(log 65: DEDUCED.) -/
def takeMesh (s : State) (b pid : Nat) (f : Flit) : State :=
  let k := getLnk s b
  let bytes := (if f.info.toNat % 2 = 0 then [] else k.frag) ++ f.payload
  if f.info.toNat / 2 % 2 = 0 then setLnk s b { k with frag := bytes }
  else
    let s1 := setLnk s b { k with frag := [] }
    match headerNode bytes with
    | none => fwRefuse s1 (.lp b) pid 0xA NOT_MAPPED b 0
    | some (.lp l) =>
      if l = b then { s1 with mesh := s1.mesh ++ [{ pid := pid, src := .lp b, dst := .lp l, tid := 0, body := .link (packetBytes bytes) }] }
      else fwRefuse s1 (.lp b) pid 0xA TYPE_NOT_PERMITTED b 0
    | some n => { s1 with mesh := s1.mesh ++ [{ pid := pid, src := .lp b, dst := n, tid := 0, body := .link (packetBytes bytes) }] }

/-- The MESH flits of a packet: one, or two fragments. -/
def meshItems (b : List Byte) : List LinkItem :=
  let n := if b.length ≤ 240 then 1 else 2
  (List.range n).map (fun i =>
    { vc := false, typ := 3, info := BitVec.ofNat 48 (i + 2 * b2n (i + 1 == n)), payload := padFlit ((b.drop (240 * i)).take 240) })

/-- A verified flit takes effect; none: it waits. While the port's partition is in the fixer pass it is answered nothing (R293). -/
def placeFlit (s : State) (l : Nat) (f : Flit) : Option State :=
  let b := servedBlock s l
  let pid := lpid (getLnk s l)
  if inPass s pid then some s
  else if f.typ = 3 then some (takeMesh s b pid f)
  else if f.typ = 4 then some (takeSyncReq s b pid f)
  else if f.typ = 5 then some (takeSyncRsp s b f)
  else if f.typ = 6 then takePart s b pid f
  else if f.typ = 7 then some (takeRes s b pid f)
  else if f.typ = 8 then takePrint s b pid f
  else some s

/-- A flit has left the receiver: one credit of its class is to be returned. -/
def owe (s : State) (l : Nat) (vc : Bool) : State :=
  modLnk s l (fun k => if vc then { k with owed1 := k.owed1 + 1 } else { k with owed0 := k.owed0 + 1 })

/-- A flit of a verified group; request-class flits stay behind one that waits. -/
def deliverFlit (l : Nat) (s : State) (f : Flit) : State :=
  let k := getLnk s l
  if !f.vc && !k.held.isEmpty then setLnk s l { k with held := k.held ++ [f] }
  else match placeFlit s l f with
    | some t => owe t l f.vc
    | none => setLnk s l { k with held := k.held ++ [f] }

/-- The cycle of a flit that waits: print data counts in LNK_STL (R292), a partial in the RG_STLg of its home port (R270). -/
def countHeld (s : State) (l : Nat) (f : Flit) : State :=
  if f.typ = 6 then
    match homeOf s (servedBlock s l) (lpid (getLnk s l)) (f.info.toNat % 256) false with
    | some (a, g) => modLnk s a (fun k => rgHeld k g)
    | none => s
  else modLnk s l (fun k => k.count 0x30 1)

/-- Flits that waited are tried again, in order, until one still waits; that cycle counts. -/
def drainHeld (l : Nat) : List Flit → State → State
  | [], s => modLnk s l (fun k => { k with held := [] })
  | f :: fs, s => match placeFlit s l f with
    | some t => drainHeld l fs (owe t l f.vc)
    | none => countHeld (modLnk s l (fun k => { k with held := f :: fs })) l f

/-! ### The bytes of a flit, its CRC and its group's seal (R279, R282) -/
/-- Header bits [95:0]. -/
def flitHead (f : Flit) : Nat :=
  f.typ.toNat + b2n f.vc * 2 ^ 4 + b2n f.enc * 2 ^ 5 + b2n f.keysel * 2 ^ 6 + b2n f.scrub * 2 ^ 7 + f.seq.toNat * 2 ^ 8 + f.ackseq.toNat * 2 ^ 20 +
    b2n f.ack * 2 ^ 32 + b2n f.nak * 2 ^ 33 + b2n f.crvc * 2 ^ 34 + f.cred.toNat * 2 ^ 40 + f.info.toNat * 2 ^ 48
/-- The CRC of header bytes 0x00 to 0x0B and the payload as sent. -/
def flitCrc (f : Flit) : Word := crc32c (leBytes 12 (flitHead f) ++ f.payload)
/-- The 256 bytes of a flit. -/
def flitBytes (f : Flit) : List Byte := leBytes 12 (flitHead f) ++ leBytes 4 f.crc.toNat ++ f.payload
/-- A flit's share of the additional data: the header without the fields that serve the other direction and SEQ. -/
def flitAad (f : Flit) : List Byte := leBytes 12 (flitHead { f with seq := 0, ackseq := 0, ack := false, nak := false, crvc := false, cred := 0 })
/-- AES-256-GCM of a group: nonce salt and group counter. -/
def groupSeal (d : DirKey) (ctr : BitVec 64) (aad plain : List Byte) : List Byte × BitVec 128 := Config.gcm d.key (d.salt ++ ctr) aad plain

/-- A group verifies: sealing the plaintext under the key of the group's slot gives the ciphertext and the tag that came, and the group has the
length that its TAG names. -/
def groupOk (k : Lnk) (grp : List Flit) (tg : Flit) (plain : List Byte) : Bool :=
  match tfind k.keys.rx (b2n tg.keysel) with
  | none => false
  | some d =>
    let g := groupSeal d (BitVec.ofNat 64 (leNat (tg.payload.take 8))) (grp.flatMap flitAad) plain
    tg.info.toNat % 16 == grp.length && g.1 == grp.flatMap (·.payload) && leBytes 16 g.2.toNat == (tg.payload.drop 8).take 16
/-- The first group under a new key has come and is acknowledged: the old slot of that direction is destroyed (R285). -/
def LinkKeys.usedRx (x : LinkKeys) (slot : Nat) : LinkKeys :=
  if x.rxNew = some slot then { x with rx := x.rx.filter (fun e => e.1 == slot), rxNew := none } else x
/-- Credits of flits that are gone. -/
def oweAll (l : Nat) (s : State) (fs : List Flit) : State := fs.foldl (fun s f => owe s l f.vc) s

/-- TAG (R283): the oldest group that a TAG flit has closed. -/
def execTag (lp : LpIx) (plain : List Byte) (s : State) : Out :=
  let l := lp.val
  let k := getLnk s l
  let grp := k.grpRx.takeWhile (fun f => f.typ != 2)
  if lst k ≠ 6 then .next s
  else match k.grpRx.drop grp.length with
  | [] => .next s
  | tg :: rest =>
    let s1 := owe (setLnk s l { k with grpRx := rest }) l tg.vc
    if groupOk k grp tg plain then
      let s2 := modLnk s1 l (fun k => { k with keys := k.keys.usedRx (b2n tg.keysel) })
      .next (((grp.zip (pieces 240 grp.length plain)).map (fun x => { x.1 with payload := x.2 })).foldl (deliverFlit l) s2)
    else .next (enterRetrain (modLnk (oweAll l s1 grp) l (fun k => k.count 0x2C 1)) l)

/-! ### Receiving (R278 to R281, R293) -/
/-- A forwarded operation whose flit the far end has not acknowledged: it waits for a slot, or in the replay buffer of the lanes. -/
def reqUnsent (s : State) (l b tid : Nat) : Bool :=
  (getLnk s b).txq.any (fun i => i.typ == 4 && i.info.toNat == tid) || (getLnk s l).replay.any (fun f => f.typ == 4 && f.info.toNat == tid)
/-- While the far end scrubs, every operation that a block has forwarded over its lanes and that may still be refused is answered, and its flit does
not leave; a store whose flit has been acknowledged has gone (R258). (log 136: DEDUCED.) -/
def dropForwarded (s : State) (l b : Nat) : State :=
  let k := getLnk s b
  (k.fwd.filter (fun e => e.2.op != .st || reqUnsent s l b e.1)).foldl (fun s e => answerReq s e.2 (.refused PARTITION_UNAVAILABLE))
    (setLnk s b { k with fwd := [], txq := k.txq.filter (fun i => i.typ != 4) })

/-- ACKSEQ: flits up to it leave the replay buffer; the old key slot is destroyed once a group under the new one is acknowledged. -/
def ackTo (k : Lnk) (n : Nat) : Lnk :=
  match k.replay.findIdx? (fun f => f.seq.toNat == n) with
  | none => k
  | some i =>
    let r := k.replay.drop (i + 1)
    let res := match k.resend with | none => none | some j => if r.isEmpty then none else some (j - (i + 1))
    let gone := (k.replay.take (i + 1)).any (fun f => k.keys.firstTag == some f.seq.toNat)
    let keys := if gone then { k.keys with tx := k.keys.tx.filter (fun e => e.1 == fld (lnkReg k 0x8) 13 13), firstTag := none } else k.keys
    { k with replay := r, resend := res, resends := k.resends.filter (fun e => r.any (fun f => f.seq.toNat == e.1)), keys := keys }

/-- The header fields that serve the other direction. -/
def takeHeader (k : Lnk) (f : Flit) : Lnk :=
  let k1 := if f.crvc then { k with cred1 := min 128 (k.cred1 + f.cred.toNat) } else { k with cred0 := min 128 (k.cred0 + f.cred.toNat) }
  let k2 := if f.ack || f.nak then ackTo k1 f.ackseq.toNat else k1
  if f.nak && !k2.replay.isEmpty then { k2 with resend := some 0 } else k2

/-- SCRUB of the sender. -/
def takeScrub (s : State) (l : Nat) (on : Bool) : State :=
  let s1 := modLnk s l (fun k => k.stat 12 12 (b2n on))
  if on then dropForwarded s1 l (servedBlock s l) else s1

/-! ### Frames and codewords (R277, R278; log 121) -/
/-- The 10-bit symbols of a byte string, least significant bits first. -/
def frameSymbols (b : List Byte) : List (BitVec 10) :=
  let n := leNat b
  (List.range (8 * b.length / 10)).map (fun i => BitVec.ofNat 10 (n / 2 ^ (10 * i)))
/-- The flit data of a frame's lane: the symbols of the frame's 10 flits are dealt to lanes 0, 1, 2 and 3 in turn. -/
def laneData (flits : List Flit) (lane : Nat) : List (BitVec 10) :=
  let y := frameSymbols (flits.flatMap flitBytes)
  (List.range (y.length / 4)).map (fun i => y.getD (4 * i + lane) 0)
/-- The field of the code, GF(2^10), over x^10 + x^3 + 1 (IEEE 802.3; log 121: PRESUMED). -/
def gfDouble (a : BitVec 10) : BitVec 10 := if a.msb then (a <<< 1) ^^^ 0x009#10 else a <<< 1
def gfMul (a b : BitVec 10) : BitVec 10 := (List.range 10).foldr (fun i p => gfDouble p ^^^ (if b.getLsbD i then a else 0)) 0
/-- The generator polynomial of the 30 parity symbols, roots 1, x, ... x^29, without its leading 1, highest power first. -/
def rsGen : List (BitVec 10) :=
  ((List.range 30).foldl (fun (z : List (BitVec 10) × BitVec 10) _ =>
    (((z.1 ++ [0]).zip (0 :: z.1)).map (fun (x : BitVec 10 × BitVec 10) => x.1 ^^^ gfMul z.2 x.2), gfDouble z.2)) ([1], 1)).1.drop 1
/-- The parity of 514 message symbols: the remainder by the generator polynomial, highest power first. -/
def rsParity (msg : List (BitVec 10)) : List (BitVec 10) :=
  let g := rsGen
  msg.foldl (fun r d =>
    let f := d ^^^ r.headD 0
    ((r.drop 1 ++ [0]).zip g).map (fun (x : BitVec 10 × BitVec 10) => x.1 ^^^ gfMul f x.2)) (List.replicate 30 0)
/-- The codeword of a frame on a lane: the frame marker, the flit data, the parity: 2 + 512 + 30 symbols. -/
def codeword (flits : List Flit) (lane count : Nat) : List (BitVec 10) :=
  let m := Config.frameMarker lane count
  let msg := [m.setWidth 10, (m >>> 10).setWidth 10] ++ laneData flits lane
  msg ++ rsParity msg
/-- The lane on which the symbols of a data lane leave: 4 is the spare. -/
def txLaneOf (k : Lnk) (lane : Nat) : Nat := if k.txLane = some lane then 4 else lane
/-- A flit takes its place in the frame; the tenth completes it, and the four codewords go out, each on its lane. -/
def fillFrame (k : Lnk) (f : Flit) : Lnk :=
  let fs := k.frame ++ [f]
  if fs.length < 10 then { k with frame := fs }
  else { k with frame := [], frames := k.frames + 1, lanes := (List.range 4).map (fun n => (txLaneOf k n, codeword fs n k.frames)) }

/-- How a flit comes out: its CRC passes at once, passes once its codewords, with up to 15 symbol errors each, are corrected, or fails. -/
inductive CrcCheck | pass | corrected | bad
  deriving DecidableEq, Repr
def flitCheck (f : Flit) (c : FlitCheck) : CrcCheck :=
  if f.crc ≠ flitCrc f then .bad else if c.first then .pass else if c.errs.all (fun n => decide (n ≤ 15)) then .corrected else .bad

/-- The lanes carry flits: IDENT and SECURE exchange CTRL flits, ACTIVE all (R286, R279). -/
def flitsFlow (k : Lnk) : Bool := decide (4 ≤ lst k) && decide (lst k ≤ 6)

/-- What a flit that has come in order does to its port: a reserved type is discarded and counted, a CTRL flit is used, each giving back its
credit; others wait for their group's TAG. -/
def takeFlit (k : Lnk) (f : Flit) (crc : CrcCheck) : Lnk :=
  let back := fun (k : Lnk) => if f.vc then { k with owed1 := k.owed1 + 1 } else { k with owed0 := k.owed0 + 1 }
  if f.typ.toNat > 8 then back (k.count 0x24 1)
  else
    let k1 := if crc = .corrected then k.count 0x20 1 else k
    if f.typ = 1 then back k1 else { k1 with grpRx := k1.grpRx ++ [f] }

/-- FLIT_RECEIVE (R278, R280): a flit counts as corrected once it is delivered. -/
def execFlitReceive (lp : LpIx) (f : Flit) (c : FlitCheck) (s : State) : Out :=
  let l := lp.val
  let k := getLnk s l
  let crc := flitCheck f c
  if f.payload.length ≠ 240 then .refused (.illFormed "FLIT_RECEIVE")
  else if !(flitsFlow k) || k.deaf then .next s
  else if crc = .bad then .next (setLnk s l { k.count 0x24 1 with nakDue := true })
  else if f.typ = 0 then .next (takeScrub (setLnk s l (takeHeader (if crc = .corrected then k.count 0x20 1 else k) f)) l f.scrub)
  else if f.seq.toNat ≠ k.rxSeq then
    .next (setLnk s l (if (k.rxSeq + 4096 - f.seq.toNat) % 4096 ≤ 2048 then { k with ackDue := true } else { k with nakDue := true }))
  else
    .next (takeScrub (setLnk s l (takeFlit { takeHeader k f with rxSeq := (k.rxSeq + 1) % 4096, ackDue := true } f crc)) l f.scrub)

/-! ### Sending (R278 to R283, R293) -/
def sealCrc (f : Flit) : Flit := { f with crc := flitCrc f }
/-- A flit of a port, before its payload is encrypted and its CRC formed: acknowledgement, credits and key slot as they stand. -/
def makeFlit (k : Lnk) (typ : Nat) (vc scrub : Bool) (info : BitVec 48) (payload : List Byte) : Flit :=
  let vcr := decide (k.owed1 > 0)
  { typ := BitVec.ofNat 4 typ, vc := vc, enc := decide (3 ≤ typ), keysel := bit (lnkReg k 0x8) 13, scrub := scrub,
    seq := if typ = 0 then 0 else BitVec.ofNat 12 k.txSeq, ackseq := BitVec.ofNat 12 (k.rxSeq + 4095), ack := k.ackDue, nak := k.nakDue,
    crvc := vcr, cred := BitVec.ofNat 8 (min 255 (if vcr then k.owed1 else k.owed0)), info := info, crc := 0, payload := payload }

/-- The port after a new flit has left: acknowledgement and credits are given, a flit with a SEQ takes a credit of its class and waits in the
replay buffer. -/
def afterSend (k : Lnk) (f : Flit) : Lnk :=
  let k1 := if f.crvc then { k with owed1 := k.owed1 - f.cred.toNat } else { k with owed0 := k.owed0 - f.cred.toNat }
  let k2 := { k1 with ackDue := false, nakDue := false }
  if f.typ = 0 then k2
  else { k2 with replay := k2.replay ++ [f], txSeq := (k.txSeq + 1) % 4096,
                 cred0 := if f.vc then k.cred0 else k.cred0 - 1, cred1 := if f.vc then k.cred1 - 1 else k.cred1 }

def outFlit (s : State) (l : Nat) (k : Lnk) (f : Flit) : State := { setLnk s l (fillFrame k f) with outbox := s.outbox ++ [.flit l f] }

/-- A new flit leaves. -/
def postFlit (s : State) (l : Nat) (f : Flit) : State := outFlit s l (afterSend (getLnk s l) f) f
def sendFlit (s : State) (l typ : Nat) (vc scrub : Bool) (info : BitVec 48) (payload : List Byte) : State :=
  postFlit s l (sealCrc (makeFlit (getLnk s l) typ vc scrub info payload))

def sendIdle (s : State) (l : Nat) (scrub : Bool) : State := sendFlit s l 0 false scrub 0 (padFlit [])

/-- The key of the current transmit slot; a port in ACTIVE has one. -/
def txKey (k : Lnk) : DirKey := tget k.keys.tx (fld (lnkReg k 0x8) 13 13) { key := 0, salt := 0 }

/-- The TAG flit that closes the open group: its counter, its tag. -/
def sendTagFlit (s : State) (l : Nat) : State :=
  let k := getLnk s l
  let tag := (groupSeal (txKey k) k.keys.ctr k.grpAad k.grpPlain).2
  let s1 := sendFlit s l 2 false false (BitVec.ofNat 48 k.grpTx) (padFlit (leBytes 8 k.keys.ctr.toNat ++ leBytes 16 tag.toNat))
  let first := if k.keys.firstTag = some 4096 then some k.txSeq else k.keys.firstTag
  modLnk s1 l (fun k => { k with grpTx := 0, grpAad := [], grpPlain := [], grpSync := false, keys := { k.keys with ctr := k.keys.ctr + 1, firstTag := first } })

/-- The first group after a rekey takes the new key slot (R285). -/
def turnKey (k : Lnk) : Lnk :=
  if k.grpTx = 0 && k.keys.fresh then
    { k.stat 13 13 (1 - fld (lnkReg k 0x8) 13 13) with keys := { k.keys with fresh := false, ctr := 0, firstTag := some 4096 } }
  else k

/-- An encrypted flit: its payload is its stretch of the ciphertext of its group so far. -/
def sealFlit (k : Lnk) (f : Flit) : Flit :=
  let c := (groupSeal (txKey k) k.keys.ctr (k.grpAad ++ flitAad f) (k.grpPlain ++ f.payload)).1
  sealCrc { f with payload := (c.drop k.grpPlain.length).take 240 }

/-- One waiting item of block b leaves on the lanes of port l. -/
def sendItem (s : State) (l b : Nat) (i : LinkItem) : State :=
  let s1 := modLnk s b (fun k => { k with txq := k.txq.erase i })
  if i.typ = 1 then sendFlit s1 l 1 false false i.info i.payload
  else
    let s2 := modLnk s1 l turnKey
    let k := getLnk s2 l
    let f := makeFlit k i.typ i.vc false i.info i.payload
    modLnk (postFlit s2 l (sealFlit k f)) l (fun k =>
      { k with grpTx := k.grpTx + 1, grpAad := k.grpAad ++ flitAad f, grpPlain := k.grpPlain ++ i.payload, grpSync := k.grpSync || i.typ == 4 || i.typ == 5 })

/-- R281: a flit of the replay buffer is sent again. -/
def resendFlit (s : State) (l i : Nat) (f : Flit) : State :=
  let k := getLnk s l
  let n := tget k.resends f.seq.toNat 0 + 1
  let k1 := { k.count 0x28 1 with resends := tset k.resends f.seq.toNat n, resend := if i + 1 < k.replay.length then some (i + 1) else none }
  if n ≥ 16 then enterRetrain (outFlit s l { k1 with resends := [] } f) l else outFlit s l k1 f

/-- What may leave in a slot, first to last (R264, R281, R283): a sync response; CTRL flits; other responses; requests. -/
structure Waiting where
  sync : Option LinkItem
  ctrl : Option LinkItem
  rsp : Option LinkItem
  req : Option LinkItem
  deriving DecidableEq, Repr

/-- Of a port: its own CTRL flits and, in ACTIVE, the items of the block that its lanes serve, where no alternate serves it in their place (R290)
and the key is not spent (R285). -/
def waiting (s : State) (l : Nat) : Waiting :=
  let k := getLnk s l
  let b := servedBlock s l
  let q := if lst k = 6 && lanesOf s b == l && !(keySpent k) then (getLnk s b).txq else []
  { sync := q.find? (fun i => i.typ == 5), ctrl := k.txq.find? (fun i => i.typ == 1), rsp := q.find? (fun i => i.vc && i.typ != 5),
    req := q.find? (fun i => !i.vc && i.typ != 1) }

/-- A slot in which nothing is resent. A TAG or CTRL flit is of the request class. -/
def newSlot (s : State) (l : Nat) : State :=
  let k := getLnk s l
  let w := waiting s l
  let b := servedBlock s l
  let stall := ((w.sync.isSome || w.rsp.isSome) && k.cred1 == 0) || ((w.req.isSome || w.ctrl.isSome || decide (k.grpTx > 0)) && k.cred0 == 0)
  let s1 := if stall then modLnk s l (fun k => k.count 0x30 1) else s
  let tag := if k.cred0 > 0 then sendTagFlit s1 l else sendIdle s1 l false
  if k.grpTx ≥ 15 || k.grpSync then tag
  else match w.sync.filter (fun _ => decide (k.cred1 > 0)) with
  | some i => sendItem s1 l b i
  | none =>
    if w.ctrl.isSome && decide (k.grpTx > 0) && decide (k.cred0 > 0) then tag
    else match w.ctrl.filter (fun _ => decide (k.cred0 > 0)) with
    | some i => sendItem s1 l l i
    | none => match w.rsp.filter (fun _ => decide (k.cred1 > 0)), w.req.filter (fun _ => decide (k.cred0 > 0)) with
      | some i, _ => sendItem s1 l b i
      | none, some i => sendItem s1 l b i
      | none, none => if k.grpTx > 0 then tag else sendIdle s1 l false

/-- FLIT_SLOT (R278, R281, R283, R293): resending first, then a sync response, CTRL, the response class, the request class, with a TAG when
the group must close or nothing else can leave. (log 41: DEDUCED.) -/
def execFlitSlot (lp : LpIx) (s0 : State) : Out :=
  let l := lp.val
  if !(flitsFlow (getLnk s0 l)) then .next s0
  else if inPass s0 (lpid (getLnk s0 l)) then .next (sendIdle s0 l true)
  else
    let s1 := if lst (getLnk s0 l) = 6 then releaseReds (drainHeld l (getLnk s0 l).held s0) (servedBlock s0 l) else s0
    let s := if keySpent (getLnk s1 l) then autoRekey s1 l else s1
    let k := getLnk s l
    match k.resend.bind (fun i => (k.replay[i]?).map (fun f => (i, f))) with
    | some (i, f) => .next (resendFlit s l i f)
    | none => .next (if k.replay.length ≥ 256 then sendIdle s l false else newSlot s l)

end Sys2Proof.Machine
end

