-- ==== Sys2Proof/Machine/Rot.lean ====
section
/-! DEFINITION. The root of trust (R310 to R331): mailboxes, partitions, grants, quotas, pages, key modes, host-tier keys. -/
namespace Sys2Proof.Machine

/-! ### Mailboxes (R315, R316) -/
def mbxReg (s : State) (b : Mailbox) (off : Nat) : Word :=
  match b with
  | .pf => hubReg s.hub (0x100000 + off)
  | .part p => partReg (getPart s p.val) (0x1000 + off)
def setMbx (s : State) (b : Mailbox) (off : Nat) (v : Word) : State :=
  match b with
  | .pf => modHub s (fun h => h.setReg (0x100000 + off) v)
  | .part p => modPart s p.val (fun k => k.setReg (0x1000 + off) v)
def mbxArg (s : State) (b : Mailbox) (n : Nat) : Nat := (mbxReg s b (0x10 + 4 * n)).toNat
def setRes (s : State) (b : Mailbox) (n : Nat) (v : Word) : State := setMbx s b (0x40 + 4 * n) v

/-- A write of CMD: while BUSY it sets OVERRUN and is discarded, else the command waits its turn. -/
def cmdWrite (s : State) (b : Mailbox) (v : Word) : State :=
  let st := mbxReg s b 0x4
  if bit st 0 then setMbx s b 0x4 (setBit st 2 true)
  else modRot (setMbx (setMbx s b 0x0 (v &&& 0xFF#32)) b 0x4 (setFld st 2 0 1)) (fun r => { r with queue := r.queue ++ [.mbx b] })

/-- The command at the front is one of this mailbox and code, and has not taken effect yet. (log 44: DEDUCED.) -/
def atFront (s : State) (b : Mailbox) (code : Nat) : Bool :=
  s.hub.rot.queue.head? == some (.mbx b) && s.hub.rot.result.isNone && fld (mbxReg s b 0x0) 7 0 == code
def setResult (s : State) (c : Nat) : State := modRot s (fun r => { r with result := some c })

/-- The lowest code among the reasons that hold (R366); 0 for none. Reasons are listed in ascending order. -/
def lowest (l : List (Nat × Bool)) : Nat := ((l.find? (·.2)).map (·.1)).getD 0

def issuerPf (b : Mailbox) : Bool := b == .pf
/-- A command: refused with a reason, else its effect (R316). A command that the issuing function may not use is refused as such, whatever
its arguments (log 44: DEDUCED). -/
def rotRun (s : State) (b : Mailbox) (code : Nat) (check : Nat) (eff : State) : State :=
  if !(atFront s b code) then s
  else if issuerPf b != decide (code < 0x20) then setResult s 0x0E
  else if check ≠ 0 then setResult s check else setResult eff 0

/-- The partition that a tenant's command acts on. -/
def mbxPart : Mailbox → Nat | .pf => 8 | .part p => p.val
/-- What refuses any command of the operator that names partition p: p above 7, SCRUB, ABSENT. -/
def namedBad (s : State) (p : Nat) : Nat → Bool
  | 0x06 => decide (p > 7)
  | 0x0D => decide (p ≤ 7) && partState s p == SCRUB
  | 0x0E => decide (p ≤ 7) && partState s p == ABSENT
  | _ => false
/-- What refuses any command of a tenant. -/
def tenantBad (s : State) (b : Mailbox) : Nat → Bool
  | 0x0D => partState s (mbxPart b) == SCRUB
  | 0x0E => partState s (mbxPart b) == ABSENT
  | _ => false

/-- A partition changes state (R317, R370). -/
def setState (s : State) (p st : Nat) : State := raisePf (modPart s p (fun k => k.stat 1 0 st)) 4

/-! ### PART_CREATE, PART_GRANT, PART_REVOKE, PART_QUOTA (R317 to R320) -/
/-- PART_CREATE (R317). -/
def execPartCreate (b : Mailbox) (s : State) : Out :=
  let p := mbxArg s b 0
  let c := lowest [(0x03, decide (p ≤ 7) && partState s p != ABSENT), (0x06, decide (p > 7)), (0x0D, decide (p ≤ 7) && partState s p == SCRUB)]
  let s1 := modPart s p (fun k => { k.setReg 0x10 (setFld (setFld (partReg k 0x10) 8 6 0) 4 2 0) with
    grants := Grants.none_, label := 0, log := [], logCount := 0, logDigest := 0, policy := 0 })
  let s2 := modPart s1 p (fun k => (((k.setReg 0x14 0).setReg 0x1C 0).setReg 0x24 1))
  .next (rotRun s b 0x01 c (setState (logAppend s2 p L_CREATE 0) p OPEN))

/-- The resources that a command names: kind, index, mask. -/
structure GrantArg where
  kind : Nat
  idx : Nat
  mask : BitVec 128

def grantArg (s : State) (b : Mailbox) : GrantArg :=
  let kind := mbxArg s b 1
  let m := mbxArg s b 3 + (if kind = 2 then mbxArg s b 4 * 2 ^ 32 + mbxArg s b 5 * 2 ^ 64 + mbxArg s b 6 * 2 ^ 96 else 0)
  { kind := kind, idx := mbxArg s b 2, mask := BitVec.ofNat 128 m }
def grantBad (a : GrantArg) : Bool :=
  decide (a.kind > 5) || (if a.kind = 0 ∨ a.kind = 2 then decide (a.idx > 159) else decide (a.idx ≠ 0)) ||
    (if a.kind = 1 then decide (a.mask.toNat ≥ 16) else if a.kind ≥ 3 then decide (a.mask.toNat ≥ 65536) else false)
/-- What a partition holds of a kind. -/
def heldMask (g : Grants) (a : GrantArg) : BitVec 128 :=
  if a.kind = 0 then (tget g.cores a.idx (0 : BitVec 32)).setWidth 128 else if a.kind = 1 then g.ctxs.setWidth 128
  else if a.kind = 2 then tget g.staging a.idx (0 : BitVec 128) else if a.kind = 3 then g.ports.setWidth 128
  else if a.kind = 4 then g.stations.setWidth 128 else g.hccs.setWidth 128
def putMask (g : Grants) (a : GrantArg) (m : BitVec 128) : Grants :=
  if a.kind = 0 then { g with cores := tset g.cores a.idx (m.setWidth 32) } else if a.kind = 1 then { g with ctxs := m.setWidth 4 }
  else if a.kind = 2 then { g with staging := tset g.staging a.idx m } else if a.kind = 3 then { g with ports := m.setWidth 16 }
  else if a.kind = 4 then { g with stations := m.setWidth 16 } else { g with hccs := m.setWidth 16 }

/-- Another partition holds one of the resources; contexts are not exclusive. -/
def grantTaken (s : State) (p : Nat) (a : GrantArg) : Bool :=
  decide (a.kind ≠ 1) && (List.range 8).any (fun r => r != p && (heldMask (getPart s r).grants a &&& a.mask) != 0)

/-- A host-class core is in use: stores not yet written back, a sync operation under way (log 37). (log 37: DEDUCED.) -/
def hccBusy (s : State) (h : Nat) : Bool :=
  let of := fun (y : SyncState) => (y.waiters.map (·.q) ++ y.arrived ++ y.held).any (fun q => q.src == .hcc h)
  !(tget s.hub.hccDirty h []).isEmpty || s.clusters.any (fun c => of c.2.hive) || s.lnks.any (fun l => of l.2.sync) ||
    s.lnks.any (fun l => l.2.fwd.any (fun e => e.2.src == .hcc h && e.2.op != .st)) ||
    s.mesh.any (fun p => match p.body with | .sync q => q.src == .hcc h | .syncRsp src _ _ _ => src == .hcc h | _ => false)

/-- A resource of the mask is enabled (R318). -/
def grantBusy (s : State) (p : Nat) (a : GrantArg) : Bool :=
  let on := (List.range 128).filter (fun i => bit (a.mask &&& heldMask (getPart s p).grants a) i)
  if a.kind = 0 then on.any (fun i => (getCore s (a.idx * 32 + i)).ctxs.any (fun x => x.2.stn.isSome))
  else if a.kind = 2 then
    let k := getCl s a.idx
    on.any (fun i => (List.range 4).any (fun ch => ringOn k ch && rangesMeet [(i * 65536, 65536)] [ringSpan k ch]))
  else if a.kind = 3 then on.any (fun i => lnkOn (getLnk s i))
  else if a.kind = 4 then on.any (stationOn s)
  else if a.kind = 5 then on.any (hccBusy s)
  else false

def setGrant (s : State) (p : Nat) (a : GrantArg) (m : BitVec 128) : State :=
  logAppend s p L_GRANT_CHANGE 0 |> fun t => modPart t p (fun k => { k with grants := putMask k.grants a m })

/-- PART_GRANT (R318). New cores take the partition's copy of HALT (R164). -/
def execPartGrant (b : Mailbox) (s : State) : Out :=
  let p := mbxArg s b 0
  let a := grantArg s b
  let nb := namedBad s p
  let c := lowest [(0x03, decide (p ≤ 7) && !(grantBad a) && grantTaken s p a), (0x06, nb 0x06 || grantBad a), (0x0A, decide (p ≤ 7) && partState s p == SEALED), (0x0D, nb 0x0D), (0x0E, nb 0x0E)]
  let s1 := setGrant s p a (heldMask (getPart s p).grants a ||| a.mask)
  let halt := bit (partReg (getPart s p) 0x140) 0
  let s2 := if a.kind = 0 then ((List.range 32).filter (fun i => bit a.mask i)).foldl (fun s i => setCore s (a.idx * 32 + i) { getCore s (a.idx * 32 + i) with halt := halt }) s1 else s1
  .next (rotRun s b 0x02 c s2)

/-- PART_REVOKE (R318). -/
def execPartRevoke (b : Mailbox) (s : State) : Out :=
  let p := mbxArg s b 0
  let a := grantArg s b
  let nb := namedBad s p
  let c := lowest [(0x06, nb 0x06 || grantBad a), (0x0A, decide (p ≤ 7) && partState s p == SEALED), (0x0D, nb 0x0D || (decide (p ≤ 7) && grantBusy s p a)), (0x0E, nb 0x0E)]
  .next (rotRun s b 0x03 c (setGrant s p a (heldMask (getPart s p).grants a &&& ~~~a.mask)))

/-- OVER_QUOTA (R320). -/
def quotaFlag (s : State) (p : Nat) : State :=
  modPart s p (fun k => k.stat 2 2 (b2n (decide ((partReg k 0x18).toNat > (partReg k 0x14).toNat) || decide ((partReg k 0x20).toNat > (partReg k 0x1C).toNat))))

def quotaOff (kind : Nat) : Nat := if kind = 0 then 0x14 else if kind = 1 then 0x1C else 0x24

/-- PART_QUOTA (R319). -/
def execPartQuota (b : Mailbox) (s : State) : Out :=
  let p := mbxArg s b 0
  let kind := mbxArg s b 1
  let v := mbxArg s b 2
  let nb := namedBad s p
  let old := (partReg (getPart s p) (quotaOff kind)).toNat
  let others := ((List.range 8).filter (fun r => r != p)).map (fun r => (partReg (getPart s r) 0x14).toNat)
  let c := lowest [(0x02, decide (p ≤ 7) && decide (kind = 0) && decide (v > old) && decide (others.sum + v > 262064)),
    (0x06, nb 0x06 || decide (kind > 2) || (decide (kind = 1) && decide (v > 1048576)) || (decide (kind = 2) && (decide (v = 0) || decide (v > 255)))),
    (0x0D, nb 0x0D), (0x0E, nb 0x0E)]
  let s1 := if v < old then logAppend s p L_QUOTA_CUT kind else s
  .next (rotRun s b 0x04 c (quotaFlag (modPart s1 p (fun k => k.setReg (quotaOff kind) (w32 v))) p))

/-! ### Safelight (R330, R405) -/
/-- The device ends a running trace: the ring is released, records in the source buffers go. -/
def traceEnd (s : State) (p : Nat) : State :=
  let k := getPart s p
  if !bit (partReg k 0x2004) 0 then s
  else
    let k1 := (k.setReg 0x2000 (setBit (partReg k 0x2000) 0 false)).setReg 0x2004 (setBit (setBit (partReg k 0x2004) 0 false) 1 true)
    let s1 := setPart s p (if hwrOwner k1 = 2 then hwrClaim k1 0 else k1)
    { s1 with clusters := s1.clusters.map (fun c => (c.1, { c.2 with trace := c.2.trace.filter (fun t => t.part != p) })) }

def slCheck (s : State) (b : Mailbox) : Nat :=
  let nb := namedBad s (mbxArg s b 0)
  lowest [(0x06, nb 0x06), (0x0D, nb 0x0D), (0x0E, nb 0x0E)]

/-- SL_ATTACH (R330). -/
def execSlAttach (b : Mailbox) (s : State) : Out :=
  let p := mbxArg s b 0
  .next (rotRun s b 0x06 (slCheck s b) (modPart (logAppend s p L_SL_ATTACH 0) p (fun k => k.stat 3 3 1)))
/-- SL_DETACH (R330, R405). -/
def execSlDetach (b : Mailbox) (s : State) : Out :=
  let p := mbxArg s b 0
  let s1 := modPart (logAppend s p L_SL_DETACH 0) p (fun k => k.stat 3 3 0)
  .next (rotRun s b 0x07 (slCheck s b) (if partState s p = SEALED then traceEnd s1 p else s1))

/-! ### Firmware (R313) -/
def bootReg (s : State) : Word := hubReg s.hub 0x100100
/-- FW_COMMIT. -/
def execFwCommit (b : Mailbox) (s : State) : Out :=
  let svn : BitVec 16 := BitVec.ofNat 16 (fld (bootReg s) 31 16)
  let new := if s.hub.rot.minsvn.toNat < svn.toNat then svn else s.hub.rot.minsvn
  let s1 := modRot s (fun r => { r with minsvn := new, primary := bit (bootReg s) 0 })
  let s2 := modHub s1 (fun h => ((h.setReg 0x100100 (setBit (bootReg s) 8 false)).setReg 0x100104 (new.setWidth 32)).setReg 0x4 (setBit (hubReg h 0x4) 2 (decide (svn.toNat > new.toNat))))
  .next (rotRun s b 0x08 0 s2)

/-- The slot that does not run. -/
def Rot.putSlot (r : Rot) (runsB : Bool) (img : Option Image) : Rot := if runsB then { r with slotA := img } else { r with slotB := img }
/-- FW_UPDATE: the slot that does not run is written progressively (R316); until the write has ended it holds no image that verifies (R375). -/
def execFwUpdate (b : Mailbox) (img : Image) (s : State) : Out :=
  let c := lowest [(0x06, decide (mbxArg s b 2 > 2 ^ 24))]
  .next (rotRun s b 0x09 c (modRot s (fun r => { r.putSlot (bit (bootReg s) 0) none with writing := some img })))
/-- The write has ended: the slot holds the image, and TRIAL is set. -/
def fwWritten (s : State) : State :=
  modRot s (fun r => match r.writing with
    | some img => { r.putSlot (bit (bootReg s) 0) (some img) with writing := none, trial := true }
    | none => r)

/-! ### Pages (R320, R321) -/
/-- Frames that the pool gives: the top five of each package hold the page tables (R197). -/
def FRAMES : Nat := 16379
/-- The n lowest free frames of a package (log 38). (log 38: DESIGN CHOICE.) -/
def freeFrames (k : Mc) (n : Nat) : List Nat := ((List.range FRAMES).filter (fun f => !(k.used.contains f) && !(k.reloc.contains f))).take n
def freeCount (k : Mc) : Nat := FRAMES - k.used.length - k.reloc.length

def pageRange (s : State) (b : Mailbox) : List Nat := (List.range (mbxArg s b 2)).map (fun i => mbxArg s b 1 + i)
def rangeBad (s : State) (b : Mailbox) : Bool :=
  let sp := mbxArg s b 0
  (sp != 2 && sp != 3) || decide (mbxArg s b 1 + mbxArg s b 2 > pageMax sp)
def setPt (k : Part) (space page : Nat) (e : BitVec 128) : Part :=
  if space = 2 then { k with pt2 := tset k.pt2 page e } else { k with pt3 := tset k.pt3 page e }
def delPt (k : Part) (space page : Nat) : Part :=
  if space = 2 then { k with pt2 := tdel k.pt2 page } else { k with pt3 := tdel k.pt3 page }

/-- The uses as they stand (R322). -/
def useCount (k : Part) : Part := (k.setReg 0x18 (w32 (k.pt2.filter (fun e => ptValid e.2)).length)).setReg 0x20 (w32 (k.pt3.filter (fun e => ptValid e.2)).length)
def recount (s : State) (p : Nat) : State := quotaFlag (modPart s p useCount) p

/-- PAGE_MAP's entry for the i-th page. -/
def mapEntry (s : State) (b : Mailbox) (i frame : Nat) : BitVec 128 :=
  if mbxArg s b 0 = 2 then BitVec.ofNat 128 (1 + mbxArg s b 3 * 2 ^ 8 + frame * 2 ^ 12)
  else
    let a7 := mbxArg s b 7
    let h := mbxArg s b 3 + mbxArg s b 4 * 2 ^ 32 + i * 2 ^ 21
    let t := mbxArg s b 5 + mbxArg s b 6 * 2 ^ 32 + i * 2 ^ 17
    BitVec.ofNat 128 (3 + a7 / 256 % 2 * 4 + a7 % 256 * 2 ^ 8 + h % 2 ^ 64 + t % 2 ^ 64 * 2 ^ 64)

/-- PAGE_MAP (R320). -/
def execPageMap (b : Mailbox) (s : State) : Out :=
  let p := mbxPart b
  let q := getPart s p
  let sp := mbxArg s b 0
  let n := mbxArg s b 2
  let pkg := mbxArg s b 3
  let tb := tenantBad s b
  let above := if sp = 2 then decide ((partReg q 0x18).toNat + n > (partReg q 0x14).toNat) || decide (n > freeCount (getMc s pkg))
              else decide ((partReg q 0x20).toNat + n > (partReg q 0x1C).toNat)
  let c := lowest [(0x01, !(rangeBad s b) && (if sp = 2 then q.pt2 else q.pt3).any (fun e => ptValid e.2 && decide (mbxArg s b 1 ≤ e.1) && decide (e.1 < mbxArg s b 1 + n))),
    (0x02, above), (0x06, rangeBad s b || (sp == 2 && decide (pkg > 15))),
    (0x07, sp == 3 && (decide (mbxArg s b 3 % 2 ^ 21 ≠ 0) || decide (mbxArg s b 5 % 2 ^ 17 ≠ 0))), (0x0D, tb 0x0D), (0x0E, tb 0x0E),
    (0x12, sp == 3 && !(epochLive s p (mbxArg s b 7 % 256)))]
  let fs := if sp = 2 then freeFrames (getMc s pkg) n else List.replicate n 0
  let ps := (pageRange s b).zip ((List.range n).zip fs)
  let s1 := modPart s p (fun k => ps.foldl (fun k x => setPt k sp x.1 (mapEntry s b x.2.1 x.2.2)) k)
  let s2 := if sp = 2 then setMc s1 pkg { getMc s1 pkg with used := (getMc s1 pkg).used ++ fs } else s1
  .next (rotRun s b 0x20 c (recount (dropXlate s2 p sp (fun g => (pageRange s b).contains g)) p))

/-- A page of an enabled update region is in the range (R321). -/
def regionPages (s : State) (p sp : Nat) (hit : Nat → Bool) : Bool :=
  (List.range 16).any (fun m =>
    let k := getMc s m
    stnOn k && stnPid k == p && (List.range 4).any (fun r => regOn k r && (if sp = 2 then regPages k r else if regSplit k r then regHostPages k r else []).any hit))
def inRange (s : State) (b : Mailbox) (n : Nat) : Bool := decide (mbxArg s b 1 ≤ n) && decide (n < mbxArg s b 1 + mbxArg s b 2)

/-- A roller request or ring entry of the partition that has been accepted uses a page in the range: the change waits (R321). -/
def jobUses (s : State) (b : Mailbox) (p : Nat) (j : Job) : Bool :=
  let of := fun (v : View) => dSpace v.d == mbxArg s b 0 && (rangePages (tierRanges v)).any (inRange s b)
  j.pid == p && (of j.a || of j.b)
def pagesBusy (s : State) (b : Mailbox) : Bool :=
  s.clusters.any (fun c => c.2.chans.any (fun h => h.2.job.any (jobUses s b (mbxPart b))))

/-- Valid pages of a partition in the range of a command. -/
def validPages (s : State) (b : Mailbox) : List (Nat × BitVec 128) :=
  let q := getPart s (mbxPart b)
  (if mbxArg s b 0 = 2 then q.pt2 else q.pt3).filter (fun e => ptValid e.2 && inRange s b e.1)

def pageCheck (s : State) (b : Mailbox) : Nat :=
  let tb := tenantBad s b
  lowest [(0x06, rangeBad s b), (0x0D, tb 0x0D || regionPages s (mbxPart b) (mbxArg s b 0) (inRange s b)), (0x0E, tb 0x0E)]

/-- A frame is zeroed and returns to the pool. -/
def freeFrame (s : State) (e : BitVec 128) : State :=
  let m := ptPkg e
  let f := ptFrame e
  let k := getMc s m
  poisonCount (setMc s m { k with frames := tdel k.frames f, used := k.used.erase f, poison := k.poison.filter (fun u => u.1 != f) }) m

/-! ### Host-tier keys (R217 to R219) -/
/-- PART_HTK_CNTn: valid host pages with the slot's epoch. -/
def htkCount (s : State) (p k : Nat) : Nat :=
  ((getPart s p).pt3.filter (fun e => ptValid e.2 && ptEpoch e.2 == slotEpoch s p k)).length
def setKeySlot (k : Part) (n st : Nat) : Part := k.setReg 0x164 (setFld (partReg k 0x164) (2 * n + 1) (2 * n) st)

/-- R217: a RETIRING slot with no page left loses its key. -/
def retireSlots (s : State) (p : Nat) : State :=
  (List.range 2).foldl (fun s n =>
    if slotState s p n = 2 ∧ htkCount s p n = 0 then
      raisePart (modPart s p (fun k => let k1 := setKeySlot k n 0; { k1.setReg 0x164 (setBit (partReg k1 0x164) 20 false) with slots := tdel k.slots n })) p 5
    else s) s

/-- PAGE_UNMAP (R321). -/
def execPageUnmap (b : Mailbox) (s : State) : Out :=
  let p := mbxPart b
  let sp := mbxArg s b 0
  let c := pageCheck s b
  if atFront s b 0x21 && !(issuerPf b) && decide (c = 0) && pagesBusy s b then .next s
  else
    let s0 := (List.range 16).foldl (fun s h => if hccOwner s h = some p then writeBack s h (fun _ => true) else s) s
    let es := validPages s b
    let s1 := dropXlate (modPart s0 p (fun k => es.foldl (fun k e => delPt k sp e.1) k)) p sp (inRange s b)
    let s2 := if sp = 2 then es.foldl (fun s e => freeFrame s e.2) s1 else s1
    .next (rotRun s b 0x21 c (setRes (retireSlots (recount s2 p) p) b 0 (w32 es.length)))

/-- PAGE_ATTR (R321). -/
def execPageAttr (b : Mailbox) (s : State) : Out :=
  let p := mbxPart b
  let sp := mbxArg s b 0
  let c := pageCheck s b
  if atFront s b 0x22 && !(issuerPf b) && decide (c = 0) && pagesBusy s b then .next s
  else
    let s0 := (List.range 16).foldl (fun s h => if hccOwner s h = some p then writeBack s h (fun _ => true) else s) s
    let es := validPages s b
    let s1 := modPart s0 p (fun k => es.foldl (fun k e => setPt k sp e.1 (setBit e.2 2 (decide (mbxArg s b 3 % 2 = 1)))) k)
    .next (rotRun s b 0x22 c (setRes (dropXlate s1 p sp (inRange s b)) b 0 (w32 es.length)))

/-- KEY_MODE (R324). -/
def execKeyMode (b : Mailbox) (s : State) : Out :=
  let p := mbxPart b
  let tb := tenantBad s b
  let w := mbxArg s b 0
  let c := lowest [(0x06, decide (w > 3)), (0x0A, partState s p == SEALED),
    (0x0D, tb 0x0D || (List.range 2).any (fun n => slotState s p n != 0) || (List.range 16).any (fun l => lnkOn (getLnk s l) && lpid (getLnk s l) == p)), (0x0E, tb 0x0E)]
  let label := BitVec.ofNat 128 (mbxArg s b 1 + mbxArg s b 2 * 2 ^ 32 + mbxArg s b 3 * 2 ^ 64 + mbxArg s b 4 * 2 ^ 96)
  .next (rotRun s b 0x23 c (modPart s p (fun k => { k.stat 7 6 w with label := label })))

/-- LOG_READ (R327). -/
def execLogRead (b : Mailbox) (s : State) : Out :=
  let q := getPart s (mbxPart b)
  let tb := tenantBad s b
  let i := mbxArg s b 0
  let first := q.logCount - q.log.length
  let c := lowest [(0x06, decide (i < first) || decide (i ≥ q.logCount)), (0x0D, tb 0x0D), (0x0E, tb 0x0E)]
  let e := q.log.getD (i - first) 0
  .next (rotRun s b 0x24 c ((List.range 4).foldl (fun s n => setRes s b n (w32 (fld e (32 * n + 31) (32 * n)))) s))

/-! ### PART_HTK_CTL and the sweep (R218, R219, R323) -/
/-- A SESSION key of its own, or the key of label and epoch (log 48: DEDUCED). REASON is that of the last refusal; an accepted LOAD or SWEEP leaves it.
(log 148: DEDUCED.) -/
def htkLoad (s : State) (p n epoch : Nat) : State :=
  let q := getPart s p
  let fixed := bit (partReg q 0x10) 7
  let o := 1 - n
  let noMode := fixed && (s.hub.rot.loads == 0xFFFFFFFF#32 || (partState s p == SEALED && bit q.policy 1))
  let c := lowest [(0x01, slotState s p o != 0 && slotEpoch s p o == epoch), (0x05, noMode), (0x0D, slotState s p n != 0)]
  if c ≠ 0 then modPart s p (fun k => k.setReg 0x164 (setFld (partReg k 0x164) 31 24 c))
  else
    let loads := s.hub.rot.loads + 1
    let key : KeySlot := if fixed then { key := .fixed q.label (BitVec.ofNat 8 epoch), ctr := 0, load := loads } else { key := .session s.hub.nextKey, ctr := 0, load := 0 }
    let s1 := if fixed then modRot s (fun r => { r with loads := loads }) else modHub s (fun h => { h with nextKey := h.nextKey + 1, rot := h.rot.draw })
    let s2 := logAppend s1 p L_HOST_KEY_LOAD epoch
    modPart s2 p (fun k => let k1 := setKeySlot k n 1; { k1.setReg 0x164 (setFld (partReg k1 0x164) (11 + 8 * n) (4 + 8 * n) epoch) with slots := tset k.slots n key })

def htkSweep (s : State) (p n : Nat) : State :=
  let st := partReg (getPart s p) 0x164
  if bit st 20 || (slotState s p n != 1 && slotState s p (1 - n) == 1) then modPart s p (fun k => k.setReg 0x164 (setFld st 31 24 0x0D))
  else retireSlots (modPart s p (fun k => let k1 := setKeySlot k n 2; k1.setReg 0x164 (setBit (partReg k1 0x164) 20 true))) p

/-- A masked write of PART_HTK_CTL: the fields, then LOAD, then SWEEP. -/
def htkCtlWrite (s : State) (p : Nat) (v : Word) : State :=
  let new := mwApply 0xFF7 (partReg (getPart s p) 0x160) v
  let n := fld new 2 2
  let s1 := modPart s p (fun k => k.setReg 0x160 (setFld new 1 0 0))
  let s2 := if bit new 0 then htkLoad s1 p n (fld new 11 4) else s1
  if bit new 1 then htkSweep s2 p n else s2

/-- PART_HTK_CTL_LOAD (R219). -/
def execPartHtkCtlLoad (fn : Fn) (p : PartIx) (v : Word) (s : State) : Out := .next (partGuard s fn p.val 0x160 (htkCtlWrite s p.val v))
/-- PART_HTK_CTL_SWEEP (R219). -/
def execPartHtkCtlSweep (fn : Fn) (p : PartIx) (v : Word) (s : State) : Out := .next (partGuard s fn p.val 0x160 (htkCtlWrite s p.val v))

/-- One page under the new key: sectors that verify under the old one are written again with the next 4,096 counter values. -/
def sweepOne (s : State) (p old new page : Nat) (e : BitVec 128) : State :=
  let sk := slotKey s p new
  let ok := slotKey s p old
  let ep := slotEpoch s p new
  let mine := fun (h : HostSec) => h.part == p && h.page == page && h.epoch == ptEpoch e && h.key == ok.key && h.addr == ptHaddr e + 512 * h.sector && h.tagAddr == ptTag e + 32 * h.sector
  let fresh := (s.hub.host.filter mine).map (fun x => { x with epoch := ep, key := sk.key, ctr := sk.ctr + BitVec.ofNat 64 x.sector, load := sk.load })
  let s2 := modPart (cipherCount (hostStore s p fresh) 4096) p (fun k =>
    { setPt k 3 page (setFld e 15 8 ep) with slots := tset k.slots new { sk with ctr := sk.ctr + 4096 } })
  dropXlate s2 p 3 (fun n => n == page)

/-- SWEEP_PAGE (R218): the next page whose epoch names the retiring slot is read from the host (R301); when it has come, it is written anew. -/
def execSweepPage (p : PartIx) (s : State) : Out :=
  let q := getPart s p.val
  if !bit (partReg q 0x164) 20 || !(hostOpen s p.val) then .next s
  else match (List.range 2).find? (fun n => slotState s p.val n == 2), (List.range 2).find? (fun n => slotState s p.val n == 1) with
    | some o, some n => match q.pt3.find? (fun e => ptValid e.2 && ptEpoch e.2 == slotEpoch s p.val o) with
      | some e =>
        let s1 := modPart s p.val (fun k => { k with reads := k.reads.filter (fun x => decide (x.1 < 2) || x.1 == 2 + e.1) })
        let z := engineRead s1 p.val (2 + e.1) (runPieces s p.val [(e.1 * 4096, 4096)])
        if z.2 then .next (retireSlots (sweepOne z.1 p.val o n e.1 e.2) p.val) else .next z.1
      | none => .next (retireSlots s p.val)
    | _, _ => .next s

end Sys2Proof.Machine
end

