-- ==== Sys2Proof/Machine/Pass.lean ====
section
/-! DEFINITION. The fixer pass (R332, R333) and the resets of functions (R303). -/
namespace Sys2Proof.Machine

/-! ### Step 2: clusters -/
/-- The partition of a token that a switch queue or a crossing holds: that of its route at the cluster, or where it was sent. -/
def tokenOf (s : State) (cl p key : Nat) (t : Token) : Bool :=
  let mine := fun (k : Cluster) => let r := route k t.ctx (keyNet key) (key % 32); rtValid r && rtPid r == p
  mine (getCl s cl) || (decide (keySide key < 4) && (neighbour cl (keySide key)).any (fun n => mine (getCl s n)))

/-- A steering unit's tokens of the contexts in which its entry is the partition's. -/
def scrubUnit (k : Cluster) (p u : Nat) (x : SUnit) : SUnit :=
  let keep := fun (t : Token) => steerPid k t.ctx u != some p
  { x with inq := x.inq.map (fun q => (q.1, q.2.filter keep)), ctl := x.ctl.filter keep, data := x.data.filter (fun d => keep d.2), out := x.out.filter (fun d => keep d.2),
           ready := x.ready.filter (fun q => keep q.d) }

/-- Route and steering entries of the partition lose VALID, in every context; steering entries are told by their routes, so they go first. -/
def scrubEntries (k : Cluster) (p : Nat) : Cluster :=
  let us := (List.range 4).flatMap (fun x => (List.range 16).map (fun u => (x, u)))
  let k1 := (us.filter (fun e => bit (steer k e.1 e.2) 0 && steerPid k e.1 e.2 == some p)).foldl (fun a e => a.setReg (steerOff e.1 e.2) (setBit (steer k e.1 e.2) 0 false)) k
  let rs := (List.range 4).flatMap (fun x => (List.range 3).flatMap (fun n => (List.range (netSlots n)).map (fun i => (x, n, i))))
  (rs.filter (fun e => let r := route k e.1 e.2.1 e.2.2; rtValid r && rtPid r == p)).foldl
    (fun a e => a.setReg (routeOff e.1 e.2.1 e.2.2) (setBit (route k e.1 e.2.1 e.2.2) 0 false)) k1

/-- Rings of the partition stop, and what the channels do for it ends, without a completion. -/
def scrubRings (k : Cluster) (p : Nat) : Cluster :=
  let k1 := ((List.range 4).filter (fun n => ringPid k n == p)).foldl (fun a n =>
    let b := a.setReg (0x1820 + 0x10 * n) (setBit (clReg a (0x1820 + 0x10 * n)) 0 false)
    { b with ringBad := setBit b.ringBad n false, ringStop := setBit b.ringStop n false, ringNext := tdel b.ringNext n }) k
  { k1 with chans := k1.chans.map (fun c => (c.1, if c.2.job.any (fun j => j.pid == p) then { c.2 with job := none } else c.2)) }

/-- Staging ranges of the partition, zeroed (step 5). -/
def scrubStaging (s : State) (cl p : Nat) (m : Mem) : Mem :=
  let g := tget (getPart s p).grants.staging cl (0 : BitVec 128)
  ((List.range 128).filter (fun i => bit g i)).foldl (fun m i => mzero m (i * 65536) 65536) m

def scrubCluster (p : Nat) (s : State) (cl : Nat) : State :=
  let k := getCl s cl
  let qs : Tbl (List Token) := k.queues.map (fun q => (q.1, q.2.filter (fun t => !(tokenOf s cl p q.1 t))))
  let cs : Tbl (List Token) := k.cross.map (fun q => (q.1, q.2.filter (fun t => !(tokenOf s cl p q.1 t))))
  let us : Tbl SUnit := k.units.map (fun u => (u.1, scrubUnit k p u.1 u.2))
  setCl s cl (scrubRings { k with queues := qs, cross := cs, units := us, staging := scrubStaging s cl p k.staging } p)

/-- Objects of the partition are disabled; their waiters are answered PARTITION_UNAVAILABLE. -/
def scrubObjs (p : Nat) (s : State) (os : List ObjRef) : State :=
  (os.filter (fun o => cfgOn (objCfg s o) && cfgPid (objCfg s o) == p)).foldl (fun s o =>
    dropWaiters (setUnitReg s (objUnit o) (objCfgOff o) (setBit (objCfg s o) 0 false)) o PARTITION_UNAVAILABLE) s
def hiveObjs (cl : Nat) : List ObjRef := (List.finRange 128).map (fun n => .hive ⟨cl % 160, Nat.mod_lt _ (by decide)⟩ n)
def portObjs (l : Nat) : List ObjRef := (List.finRange 64).map (fun n => .port ⟨l % 16, Nat.mod_lt _ (by decide)⟩ n)

/-- A core that the pass has zeroed (steps 2 and 5). -/
def scrubCore (halt : Bool) (k : Core) : Core := { Core.reset with halt := halt, nextUid := k.nextUid, dead := k.dead }

/-! ### Steps 2 and 3: link ports -/
def scrubGroup (p l : Nat) (s : State) (g : Nat) : State :=
  let k0 := getLnk s l
  if rgOn k0 g && rgPid k0 g == p then
    let s := dropReds s l g
    let k := getLnk s l
    let k1 := ((setGroup k g RedGroup.reset).setReg (rgOff g) 0).setReg (rgOff g + 0x14) (setBit (rgStat k g) 0 false)
    setLnk s l { k1 with sinkq := k1.sinkq.filter (fun q => q.1 / 8 != g) }
  else s
def scrubPort (p : Nat) (s : State) (l : Nat) : State :=
  let s1 := (List.range 4).foldl (scrubGroup p l) (scrubObjs p s (portObjs l))
  if lpid (getLnk s1 l) = p then
    modLnk s1 l Lnk.endSession
  else s1

/-! ### Steps 4 and 6 -/
/-- The station that the partition has enabled or been granted, which may hold packets and tiles still. -/
def scrubStation (p : Nat) (s : State) (m : Nat) : State :=
  let k := getMc s m
  if (stnOn k && stnPid k == p) || stationOwner s m == some p then
    setMc s m { (k.setReg 0x1000 (setBit (mcReg k 0x1000) 0 false)).setReg 0x1004 (setFld (mcReg k 0x1004) 1 0 0) with stn := Station.reset }
  else s

/-- Station entries off; print, proof and sweep ended; keys destroyed. None of them sets DONE (R303). -/
def scrubPart (k : Part) : Part :=
  let k1 := (List.range 128).foldl (fun a e =>
    let o := 0x8000 + e * 0x100
    if bit (partReg a o) 0 then (a.setReg o (setBit (partReg a o) 0 false)).setReg (o + 4) (setBit (partReg a (o + 4)) 0 false) else a) k
  let k2 := (k1.setReg 0x180 (setBit (partReg k1 0x180) 0 false)).setReg 0x184 (setFld (partReg k1 0x184) 17 16 0)
  let k3 := (k2.setReg 0x20C (setBit (partReg k2 0x20C) 0 false)).setReg 0x164 (setBit (setFld (partReg k2 0x164) 3 0 0) 20 false)
  hwrClaim { k3 with slots := [], sealKey := 0, sealSalt := 0, sealCtr := 0, reads := [], step := { k3.step with secPrint := false, print := none } } 0

/-- The pass starts (R332): steps 1 to 5 and 7 take effect; steps 6 and 8 at its end (FIXER_PASS_END). `td` says teardown.
(log 46: DEDUCED.) -/
def startPass (s : State) (p : Nat) (td : Bool) : State :=
  if partState s p ≠ OPEN ∧ partState s p ≠ SEALED then s
  else
    let s1 := setState (traceEnd s p) p SCRUB
    let s2 := modPart s1 p (fun k => { scrubPart k with pass := some td })
    let s3 := (List.range 160).foldl (fun s cl => scrubCluster p (scrubObjs p s (hiveObjs cl)) cl) s2
    let s4 := (List.range 160).foldl (fun s cl => setCl s cl (scrubEntries (getCl s cl) p)) s3
    let s5 := (List.range 16).foldl (scrubPort p) s4
    let s6 := (List.range 16).foldl (scrubStation p) s5
    let halt := bit (partReg (getPart s6 p) 0x140) 0
    let s7 := (ownedCores s6 p).foldl (fun s c => setCore s c (scrubCore halt (getCore s c))) s6
    let own := fun (h : Nat) => hccOwner s7 h == some p
    let s8 := modHub s7 (fun h => { h with reqs := h.reqs.filter (fun r => r.part != p), hccDirty := h.hccDirty.filter (fun e => !(own e.1)), hccLoad := h.hccLoad.filter (fun e => !(own e.1)), hccRsps := h.hccRsps.filter (fun e => !(own e.1)) })
    dropXlate (dropXlate s8 p 2 (fun _ => true)) p 3 (fun _ => true)

/-- PART_TEARDOWN (R316, R332): ROT_DONE waits for the end of the pass. -/
def execPartTeardown (b : Mailbox) (s : State) : Out :=
  let p := mbxArg s b 0
  let nb := namedBad s p
  .next (rotRun s b 0x05 (lowest [(0x06, nb 0x06), (0x0D, nb 0x0D), (0x0E, nb 0x0E)]) (startPass s p true))

/-! ### FIXER_PASS_END (R332, steps 6 and 8) -/
/-- Counters, log, policy; after a teardown grants, quotas and modes as well. (log 98: DEDUCED.) -/
def cleanPart (k : Part) (td : Bool) : Part :=
  let k1 := [0x28, 0x94, 0x11C, 0x150, 0x1A4, 0x2040].foldl (fun (a : Part) o => a.setReg o 0) k
  let k2 := k1.stat 5 4 (2 * b2n k1.fn.secure)
  let k3 := { k2 with log := [], logCount := 0, logDigest := 0, policy := 0, pass := none, fn := { k2.fn with flr := false } }
  if td then { (((k3.stat 8 6 0).stat 3 2 0).setReg 0x14 0 |>.setReg 0x1C 0).setReg 0x24 1 with grants := Grants.none_, label := 0 } else k3

/-- A port of the partition: its counters with their holding copies go, and the stall counters of its groups; it returns to DISABLED, and what it still
held of the partition's traffic is gone (R293, R399). -/
def cleanPort (p : Nat) (s : State) (l : Nat) : State :=
  let own := portOwner s l == some p
  let counters := if own then [0x20, 0x24, 0x28, 0x2C, 0x30, 0x120, 0x124, 0x128, 0x12C, 0x130] else []
  let s0 := if lpid (getLnk s l) = p then modLnk s l (fun k => { k with txq := [], held := [], frag := [], redPart := [], redRes := [], fwd := [] }) else s
  let s1 := modLnk s0 l (fun k => (List.range 4).foldl (fun a g => if rgPid a g = p then a.setReg (rgOff g + 0x18) 0 else a) (counters.foldl (fun a o => a.setReg o 0) k))
  if lnkOn (getLnk s1 l) && lpid (getLnk s1 l) == p then lnkDisable s1 l else s1

/-- A controller: UPD_LASTp and, of the partition's stations, the counters with their holding copies, the error log, UPD_DONE and the kernel image. -/
def cleanMc (p : Nat) (s : State) (m : Nat) : State :=
  let own := stationOwner s m == some p
  let k := getMc s m
  let k1 := if own then ([0x1050, 0x1058, 0x105C, 0x1060, 0x1064, 0x1068, 0x106C, 0x1164, 0x1168, 0x116C] ++ (List.range 512).map (fun i => 0x1800 + 4 * i)).foldl (fun (a : Mc) o => a.setReg o 0) k else k
  setMc s m (k1.setReg (0x1080 + 4 * p) 0)

def passEnd (s : State) (p : Nat) (td : Bool) : State :=
  let s1 := (getPart s p).pt2.foldl (fun s e => if ptValid e.2 then freeFrame s e.2 else s) s
  let s2 := recount (modPart s1 p (fun k => { k with pt2 := [], pt3 := [] })) p
  let s3 := (List.range 16).foldl (cleanMc p) s2
  let s4 := (List.range 16).foldl (cleanPort p) s3
  let s5 := setState (modPart s4 p (fun k => cleanPart k td)) p (if td then ABSENT else OPEN)
  if (List.range 8).any (fun r => (getPart s5 r).pass.isSome) then s5 else modHub s5 (fun h => { h with pf := { h.pf with flr := false } })

/-- FIXER_PASS_END (R332). -/
def execFixerPassEnd (p : PartIx) (s : State) : Out :=
  match (getPart s p.val).pass with
  | none => .next s
  | some td => .next (passEnd s p.val td)

/-! ### FLR (R303) -/
/-- The doorbells of the partition's rings (R300). -/
def resetTails (k : Cluster) (p : Nat) : Cluster := ((List.range 4).filter (fun n => ringPid k n == p)).foldl (fun a n => a.setReg (0x1828 + 0x10 * n) 0) k
/-- The function state of a VF after its reset, its doorbells, host write ring and aperture. (log 47: DEDUCED.) -/
def resetVf (s : State) (p : Nat) : State :=
  let s0 := modRot s (fun r => { r with queue := r.queue.filter (fun x => match x with | .seal q _ _ => q.val != p | .mbx _ => true) })
  modPart { s0 with clusters := s0.clusters.map (fun c => (c.1, resetTails c.2 p)) } p (fun k =>
    let k1 := [0x2C, 0x80, 0x84, 0x88, 0x8C, 0x90].foldl (fun (a : Part) o => a.setReg o 0) k
    { k1.stat 5 5 0 with fn := { FnState.reset with flr := k1.fn.flr }, hwrBase := 0, hwrSeq := 0, hwrPhase := true })

/-- VF_FLR. A VF whose partition is ABSENT has nothing to scrub, and its reset is complete at once. -/
def execVfFlr (p : PartIx) (s : State) : Out :=
  if !(vfLive s p.val) then .next s
  else
    let s1 := startPass (resetVf s p.val) p.val false
    .next (modPart s1 p.val (fun k => { k with fn := { k.fn with flr := k.pass.isSome } }))

/-- The registers of BAR0 that a reset of the physical function keeps: what start-up set, the molts that wait, the pages of power management and of
the sideband (R309, R393), the boot outcome, the counters of the die-to-die interfaces. (log 47: DEDUCED.) -/
def flrKeeps (o : Nat) : Bool :=
  [0x0, 0x4, 0x2C, 0x30, 0x100100, 0x100104].contains o || (decide (0x1000 ≤ o) && decide (o < 0x3000)) || decide (0x1000000 ≤ o)
/-- BAR0 state of the physical function returns to reset; a contact sheet and a mailbox command that wait are forgotten. -/
def resetBar0 (h : Hub) : Hub :=
  let r := h.rot
  { h with regs := (h.regs.filter (fun e => flrKeeps e.1)), ind := IndState.reset, markers := [], acks := [],
           rot := { r with queue := r.queue.filter (fun b => b != .mbx .pf), result := if r.queue.head? = some (.mbx .pf) then none else r.result, writing := none } }

def pfFlr (s : State) : State :=
  let s1 := modHub s (fun h => { resetBar0 h with pf := FnState.reset })
  let s2 := (List.range 8).foldl resetVf s1
  let s3 := { s2 with clusters := s2.clusters.map (fun c => (c.1, { c.2 with door := IndState.reset })) }
  let s4 := (List.range 8).foldl (fun s p => startPass s p false) s3
  let busy := (List.range 8).any (fun p => (getPart s4 p).pass.isSome)
  modHub s4 (fun h => { h with pf := { h.pf with flr := busy } })

/-- PF_FLR. -/
def execPfFlr (s : State) : Out := .next (pfFlr s)

/-- HOT_RESET: as PF_FLR, with the link down until it has retrained (DATA_LINK_UP). -/
def execHotReset (s : State) : Out := .next (modHub (pfFlr s) (fun h => { h with pwr := { h.pwr with link := false } }))

end Sys2Proof.Machine
end

