-- ==== Sys2Proof/Machine/Spdm.lean ====
section
/-! DEFINITION. What the mailboxes and the sideband answer (R308, R309): DOE Discovery, the SPDM responder, MCTP control, PLDM monitoring. The settings are the
spec's; the codes and layouts are those of the standards that it names (log 49: PRESUMED). -/
namespace Sys2Proof.Machine

/-- Free bytes of a message whose contents the spec does not give (log 1). -/
def freeBytes (s : State) (n : Nat) : List Byte × State :=
  (leBytes n (Config.freeWord s.free).toNat, { s with free := s.free + 1 })
/-- Free bytes, 32 at a time. -/
def freeBlocks : Nat → State → List Byte × State
  | 0, s => ([], s)
  | k + 1, s =>
    let f := freeBytes s 32
    let g := freeBlocks k f.2
    (f.1 ++ g.1, g.2)

/-- An answer: the bytes that are given, how many free ones follow, the bytes after them; the SPDM version that it leaves negotiated. -/
structure Reply where
  head : List Byte
  open_ : Nat
  tail : List Byte
  ver : Nat
  deriving DecidableEq, Repr
def Reply.fill (r : Reply) (s : State) : List Byte × State :=
  let f := freeBlocks ((r.open_ + 31) / 32) s
  (r.head ++ f.1.take r.open_ ++ r.tail, f.2)
def bytesOf (l : List Nat) : List Byte := l.map (BitVec.ofNat 8)
/-- Whole dwords. -/
def padDword (l : List Byte) : List Byte := l ++ List.replicate ((4 - l.length % 4) % 4) 0

/-! ### DOE Discovery -/
/-- The types that a mailbox supports: Discovery, CMA/SPDM, Secured CMA/SPDM; the PCI-SIG vendor ID, the type, the next index. -/
def discovery (w : Word) : Word :=
  let i := fld w 7 0
  if i ≤ 2 then w32 (1 + i * 2 ^ 16 + (i + 1) % 3 * 2 ^ 24) else 0xFFFF#32

/-! ### SPDM (R308) -/
/-- CERT, CHAL, MEAS with signature, ENCRYPT, MAC, KEY_EX, HBEAT, KEY_UPD, CHUNK; no PSK, no mutual authentication. -/
def spdmFlags : Nat := 2 ^ 1 + 2 ^ 2 + 2 * 2 ^ 3 + 2 ^ 6 + 2 ^ 7 + 2 ^ 9 + 2 ^ 13 + 2 ^ 14 + 2 ^ 17
/-- ALGORITHMS: SHA-384 for measurements, ECDSA P-384, SHA-384; DHE secp384r1, AEAD AES-256-GCM, the SPDM key schedule. -/
def spdmAlgorithms (v : Nat) : List Byte :=
  bytesOf ([v, 0x63, 3, 0, 48, 0, 1, 0] ++ [4, 0, 0, 0] ++ [0x80, 0, 0, 0] ++ [2, 0, 0, 0] ++ List.replicate 16 0 ++
    [2, 0x20, 0x10, 0] ++ [3, 0x20, 2, 0] ++ [5, 0x20, 1, 0])
/-- What a responder answers from: its certificate chain of slot 0, its measurement blocks by index. -/
structure SpdmDev where
  chain : List Byte
  meas : List (Nat × List Byte)
  deriving DecidableEq, Repr
/-- A measurement block: index, the DMTF specification, its size, the type of its value (bit 7: not a digest), the value. -/
def measBlock (m : Nat × List Byte) : List Byte :=
  bytesOf [m.1, 1] ++ leBytes 2 (m.2.length + 3) ++ bytesOf [if m.1 = 3 then 0x80 else 0] ++ leBytes 2 m.2.length ++ m.2
/-- MEASUREMENTS: the number of blocks, one block, or all; nonce, opaque data and, where it is asked for, the signature are the module's. -/
def measAnswer (d : SpdmDev) (ver v attr op : Nat) : Reply :=
  let bs := if op = 0 then [] else if op = 0xFF then d.meas else d.meas.filter (fun m => m.1 == op)
  let rec_ := bs.flatMap measBlock
  { head := bytesOf [v, 0x60, if op = 0 then d.meas.length else 0, 0, bs.length] ++ leBytes 3 rec_.length ++ rec_,
    open_ := 34 + 96 * (attr % 2), tail := [], ver := ver }
/-- CERTIFICATE: a portion of the chain from an offset on, and how much remains. -/
def certAnswer (d : SpdmDev) (ver v : Nat) (m : List Byte) : Reply :=
  let off := leNat ((m.drop 4).take 2)
  let part := (d.chain.drop off).take (leNat ((m.drop 6).take 2))
  { head := bytesOf [v, 0x02, 0, 0] ++ leBytes 2 part.length ++ leBytes 2 (d.chain.length - off - part.length) ++ part, open_ := 0, tail := [], ver := ver }
/-- The answer to a request under the version `ver` negotiated before. VERSION lists 1.2 and 1.3; a request under another version than these, or than
the one negotiated, is answered with an error, and so is one for PSK, for mutual authentication or for a certificate slot other than 0. -/
def spdmAnswer (d : SpdmDev) (ver : Nat) (m : List Byte) : Reply :=
  let v := (m.getD 0 0).toNat
  let code := (m.getD 1 0).toNat
  let slot := (m.getD 2 0).toNat % 16
  let error := fun (e d : Nat) => ({ head := bytesOf [if v = 0x12 ∨ v = 0x13 then v else 0x10, 0x7F, e, d], open_ := 0, tail := [], ver := ver } : Reply)
  if code = 0x84 then { head := bytesOf [0x10, 0x04, 0, 0, 0, 2, 0, 0x12, 0, 0x13], open_ := 0, tail := [], ver := 0 }
  else if v ≠ 0x12 ∧ v ≠ 0x13 then error 0x41 0
  else if code = 0xE1 then { head := bytesOf ([v, 0x61, 0, 0, 0, 20, 0, 0]) ++ leBytes 4 spdmFlags, open_ := 8, tail := [], ver := v }
  else if ver ≠ v then error (if ver = 0 then 0x04 else 0x41) 0
  else if code = 0xE3 then { head := spdmAlgorithms v, open_ := 0, tail := [], ver := ver }
  else if code = 0xE6 ∨ code = 0xE7 ∨ code = 0xEA ∨ code = 0xEB then error 0x07 code
  else if (code = 0x82 ∨ code = 0x83) ∧ slot ≠ 0 then error 0x01 0
  else if code = 0xE0 then
    (let op := (m.getD 3 0).toNat
     if op = 0 ∨ op = 0xFF ∨ d.meas.any (fun b => b.1 == op) = true then measAnswer d ver v (m.getD 2 0).toNat op else error 0x01 0)
  else if code = 0x82 then certAnswer d ver v m
  else if code = 0x81 then { head := bytesOf [v, 0x01, 0, 1], open_ := 48, tail := [], ver := ver }
  else { head := bytesOf [v], open_ := 31, tail := [], ver := ver }

/-! ### MCTP control and PLDM (R309) -/
/-- The packets of a message, whose first byte is its type: units of 64 bytes. -/
def mctpPackets (typ : Nat) (b : List Byte) : List Msg :=
  let m := BitVec.ofNat 8 typ :: b
  let n := (m.length + 63) / 64
  (List.range n).map (fun i => .mctp (i == 0) (i + 1 == n) (i % 4) ((m.drop (64 * i)).take 64))
/-- The first byte of an answer: the instance of the request. -/
def instanceOf (m : List Byte) : Nat := (m.getD 0 0).toNat % 32
/-- Get Endpoint ID answers SB_STAT.EID. -/
def mctpControl (s : State) (m : List Byte) : Reply :=
  let cmd := (m.getD 1 0).toNat
  if cmd = 2 then { head := bytesOf [instanceOf m, 2, 0, fld (hubReg s.hub 0x2000) 7 0, 0], open_ := 1, tail := [], ver := 0 }
  else { head := bytesOf [instanceOf m, cmd], open_ := 30, tail := [], ver := 0 }

/-- The reading of a numeric sensor: temperatures as signed bytes, then input power in units of 0.1 W. -/
def sensorReading (s : State) (i : Nat) : List Byte :=
  if i < 4 then bytesOf [fld (hubReg s.hub 0x1018) (8 * i + 7) (8 * i)] else if i = 4 then bytesOf [fld (hubReg s.hub 0x101C) 7 0]
  else leBytes 2 (fld (hubReg s.hub 0x1014) 15 0)
/-- The condition of a state sensor: every rail in regulation; the thermal trip. -/
def sensorCondition (s : State) (i : Nat) : Bool := if i = 6 then s.hub.pwr.rails == 7 else s.hub.pwr.trip
/-- PLDM type 2: GetSensorReading of sensors 0 to 5, GetStateSensorReadings of 6 and 7. -/
def pldmAnswer (s : State) (m : List Byte) : Reply :=
  let typ := (m.getD 1 0).toNat
  let cmd := (m.getD 2 0).toNat
  let which := (List.range 8).find? (fun i => Config.sensorId i == BitVec.ofNat 16 ((m.getD 3 0).toNat + (m.getD 4 0).toNat * 256))
  let hdr := [instanceOf m, typ, cmd]
  let fails := fun (c : Nat) => ({ head := bytesOf (hdr ++ [c]), open_ := 0, tail := [], ver := 0 } : Reply)
  if typ % 64 ≠ 2 then fails 0x20
  else match cmd, which with
    | 0x11, some i => if i < 6 then { head := bytesOf (hdr ++ [0, if i < 5 then 1 else 2, 0]), open_ := 4, tail := sensorReading s i, ver := 0 } else fails 0x80
    | 0x21, some i =>
      if i < 6 then fails 0x80
      else let x := Config.sensorState i (sensorCondition s i); { head := bytesOf (hdr ++ [0, 1, 0]) ++ [x], open_ := 1, tail := [x], ver := 0 }
    | 0x11, none | 0x21, none => fails 0x80
    | _, _ => { head := bytesOf hdr, open_ := 29, tail := [], ver := 0 }

end Sys2Proof.Machine
end

