-- ==== Sys2Proof/Machine/HostCmd.lean ====
section
/-! DEFINITION. Configuration requests and completions (R296, R301, R302), messages held and sent (R305), DOE, SPDM and the seal (R308, R325, R328), IDE
(R307, R326), the sideband (R309). -/
namespace Sys2Proof.Machine

/-! ### Functions -/
def getFn (s : State) : Fn → FnState
  | .vf p => (getPart s p.val).fn
  | _ => s.hub.pf
def modFn (s : State) (fn : Fn) (f : FnState → FnState) : State :=
  match fn with
  | .vf p => modPart s p.val (fun k => { k with fn := f k.fn })
  | .pf => modHub s (fun h => { h with pf := f h.pf })
  | .hcc _ => s
def send (s : State) (l : List Msg) : State := { s with outbox := s.outbox ++ l }

/-! ### Messages held as pending (R301, R305) -/
/-- Pending vectors of a partition that may leave now, leave. -/
def partFlush (s : State) (p : Nat) : State :=
  let k := getPart s p
  if partMute k then s
  else
    let go := k.fn.pend.filter (msixClear k.fn)
    let fn : Fn := .vf ⟨p % 8, Nat.mod_lt _ (by decide)⟩
    send (modPart s p (fun k => { k with fn := { k.fn with pend := k.fn.pend.filter (fun v => !(msixClear k.fn v)) } })) (go.map (msixMsg fn k.fn))
def pfFlush (s : State) : State :=
  let f := s.hub.pf
  send (modHub s (fun h => { h with pf := { f with pend := f.pend.filter (fun v => !(msixClear f v)) } })) ((f.pend.filter (msixClear f)).map (msixMsg .pf f))
def flushFn (s : State) : Fn → State
  | .vf p => hostKick (partFlush (postFlush s p.val) p.val)
  | .pf => pfFlush s
  | .hcc _ => s

/-! ### Configuration space (R295, R296): the offsets are PRESUMED (log 8) -/
def cfgWord (s : State) (fn : Fn) (off : Nat) : Word := tget (getFn s fn).cfg off (cfgReset fn off)
/-- What a read answers: the word; of an IDE stream's status register, whether the stream is Secure (R307). -/
def cfgRead (s : State) (fn : Fn) (off : Nat) : Word :=
  let i := (off - 0x1CC) / 0x2C
  if fn = .pf ∧ 0x1CC ≤ off ∧ off = ideBlock i + 8 ∧ i < 9 then
    (if (if i = 0 then s.hub.pf else (getPart s (i - 1)).fn).secure then 2 else 0)
  else cfgWord s fn off

/-- IDE_LOST of a partition (R326). -/
def ideDown (s : State) (p : Nat) : State :=
  if (getPart s p).fn.secure then
    let s1 := modPart s p (fun k => { k.stat 5 5 0 with fn := { k.fn with secure := false } })
    if partState s p = SEALED ∧ bit (partReg (getPart s p) 0x10) 4 = true then logAppend s1 p L_IDE_LOST 0 else s1
  else s

/-- Virtual functions that have ceased to exist keep no state. -/
def dropVfs (s : State) : State :=
  ((List.range 8).filter (fun p => !(vfLive s p))).foldl (fun s p => modPart (ideDown s p) p (fun k => { k with fn := { FnState.reset with flr := k.fn.flr } })) s

/-- A write of a word, of which no bit may be writable. At a system page size of 64 KiB the doorbell page's BAR2 has that size (R297). -/
def cfgWrite (s : State) (fn : Fn) (off : Nat) (v : Word) : State :=
  if cfgMask fn off = 0 then s
  else
    let v1 := if off = 0x16C ∧ cfgWord s .pf 0x160 = 0x10 then v &&& 0xFFFF0000#32 else v
    let s1 := modFn s fn (fun f => { f with cfg := tset f.cfg off (cfgPut fn off (cfgWord s fn off) v1) })
    flushFn (if fn = .pf then dropVfs s1 else s1) fn

/-- The function exists. -/
def cfgLive (s : State) : Fn → Bool
  | .pf => true
  | .vf p => vfLive s p.val
  | .hcc _ => false

/-- The answer before READY: Request Retry Status. With Configuration RRS Software Visibility (`sv`) a read of the Vendor ID returns 0x0001; what
stands beside it is a free value (log 1). -/
def retryCfg (s : State) (fn : Fn) (vendor : Bool) : State :=
  if vendor then let f := takeFree 16 s; send f.2 [.cfg fn (some (w32 (1 + f.1.toNat * 2 ^ 16)))] else send s [.cfg fn none]
/-- CONFIGURATION_REQUEST (R302, R303): a read, or a write of a word; the request of a function that does not exist has no answer here. -/
def execConfigurationRequest (fn : Fn) (off : BitVec 12) (w : Option Word) (sv : Bool) (s : State) : Out :=
  let o := off.toNat / 4 * 4
  if !s.hub.pwr.link then .next s
  else if !(ready s) then .next (if fn = .pf then retryCfg s fn (sv && o == 0 && w.isNone) else s)
  else if !(cfgLive s fn) then .next s
  else if (getFn s fn).flr then .next (send s [.cfg fn none])
  else match w with
    | none => .next (send s [.cfg fn (some (cfgRead s fn o))])
    | some v => let s1 := cfgWrite s fn o v; .next (send s1 [.cfg fn (some (cfgRead s1 fn o))])

/-- DATA_LINK_UP (R302). -/
def execDataLinkUp (s : State) : Out :=
  if s.hub.pwr.good && !s.hub.pwr.perst then .next (modHub s (fun h => { h with pwr := { h.pwr with link := true } })) else .next s

/-! ### Completions and posted writes (R301) -/
def aerPoison (s : State) (fn : Fn) : State := modFn s fn (fun f => { f with cfg := tset f.cfg AER (setBit (tget f.cfg AER (cfgReset fn AER)) 12 true) })

/-- A sector or its record lies in the bytes of a request. -/
def reqHits (r : HostReq) (h : HostSec) : Bool := h.part == r.part && rangesMeet [(r.addr, r.len)] [(h.addr, 512), (h.tagAddr, 32)]

/-- R216: what the host answers a request from: the pairs that stand there; or, once it has altered them, none that verifies; or an earlier pair
that it has put back in its place. -/
def hostPlays (s : State) (r : HostReq) : HostDid → State
  | .kept => s
  | .altered => modHub s (fun h => { h with host := h.host.filter (fun x => !(reqHits r x)), hostOld := h.host.filter (reqHits r) ++ h.hostOld })
  | .earlier n => match s.hub.hostOld[n]? with
    | none => s
    | some x =>
      let at_ := fun (y : HostSec) => y.part == x.part && y.addr == x.addr
      if reqHits r x then modHub s (fun h => { h with host := x :: h.host.filter (fun y => !(at_ y)), hostOld := h.host.filter at_ ++ h.hostOld.erase x }) else s

/-- COMPLETION (R301): it ends the request of its tag; a request that waits may then leave (R295). `host` is what the host has done to the
sectors (R216). -/
def execCompletion (tag : Nat) (st : CplStatus) (host : HostDid) (s : State) : Out :=
  let s1 := match s.hub.reqs.find? (fun r => r.tag == tag && r.sent) with
    | some r => if st = .poisoned then aerPoison s (.vf ⟨r.part % 8, Nat.mod_lt _ (by decide)⟩) else if st = .ok then hostPlays s r host else s
    | none => s
  .next (hostKick (endRequest s1 tag (if st = .ok then none else some (cplDetail st))))

/-- COMPLETION_TIMEOUT (R301); with the timeout disabled (R295) no timer runs. -/
def execCompletionTimeout (tag : Nat) (s : State) : Out := .next (if bit (cfgWord s .pf 0x98) 4 then s else hostKick (endRequest s tag (some 0xFF)))

/-- POISONED_WRITE (R301): dropped, logged by AER. -/
def execPoisonedWrite (fn : Fn) (s : State) : Out := .next (if cfgLive s fn then aerPoison s fn else s)

/-! ### Measurements (R328) -/
def digestWords (d : BitVec 384) : List Word := bytesToWords (digestBytes d)
/-- What measurement 0x10 covers: grants, key modes, label, policy. -/
def grantList (s : State) (p : Nat) (policy : Nat) : List Nat :=
  let q := getPart s p
  let g := q.grants
  let cores := (g.cores.filter (fun e => e.2 != 0)).flatMap (fun e => [e.1, e.2.toNat])
  let staging := (g.staging.filter (fun e => e.2 != 0)).flatMap (fun e => [e.1, e.2.toNat])
  [cores.length] ++ cores ++ [staging.length] ++ staging ++ [g.ctxs.toNat, g.ports.toNat, g.stations.toNat, g.hccs.toNat, fld (partReg q 0x10) 7 6, q.label.toNat, policy]
def meas10 (s : State) (p : Nat) : BitVec 384 :=
  Config.grantDigest (grantList s p (if partState s p = SEALED then (getPart s p).policy.toNat else 0))
def physList (s : State) : List Nat :=
  let pairs := fun (t : Tbl Nat) => t.length :: t.flatMap (fun e => [e.1, e.2])
  pairs s.hub.rot.phys ++ pairs s.hub.rot.coreMap ++ pairs s.hub.rowSp ++ pairs s.hub.colSp ++
    (List.range 16).map (fun l => let k := getLnk s l; fld (lnkReg k 0x8) 7 4 + 2 ^ 8 * (k.txLane.getD 7)) ++
    (List.range 16).map (fun m => fld (mcReg (getMc s m) 0x200) 15 0)

/-- Blocks by index: 0x01 to 0x04, of a virtual function also 0x10 and 0x11. -/
def measBlocks (s : State) (fn : Fn) : List (Nat × List Byte) :=
  let common := [(1, digestBytes Config.romDigest), (2, digestBytes s.hub.rot.digest), (3, leBytes 2 (fld (bootReg s) 31 16) ++ leBytes 2 s.hub.rot.minsvn.toNat),
    (4, digestBytes (Config.mapDigest (physList s)))]
  match fn with
  | .vf p => common ++ [(0x10, digestBytes (meas10 s p.val)), (0x11, digestBytes (getPart s p.val).logDigest ++ leBytes 4 (getPart s p.val).logCount)]
  | _ => common
/-- The blocks as index and words. -/
def measurements (s : State) (fn : Fn) : List Word := (measBlocks s fn).flatMap (fun b => BitVec.ofNat 32 b.1 :: bytesToWords b.2)
/-- What a function's responder answers from; the sideband's has the device's blocks only (R309). -/
def spdmDev (s : State) (fn : Fn) : SpdmDev :=
  { chain := s.hub.rot.idCert ++ (match s.hub.rot.keys with | some k => leBytes 96 k.fkCert.toNat | none => []), meas := measBlocks s fn }
/-- REATTEST clears when GET_MEASUREMENTS completes on the partition's function. -/
def reattested (s : State) : Fn → State
  | .vf p => modPart s p.val (fun k => k.stat 8 8 0)
  | _ => s

/-! ### DOE (R308) -/
def doeLive (s : State) (fn : Fn) : Bool := ready s && cfgLive s fn && !(getFn s fn).flr

/-- The answer to an object of a supported type: DOE Discovery, SPDM; what a secured session carries is a free value (log 1). -/
def doeAnswer (s : State) (fn : Fn) (o : DoeObject) : List Word × State :=
  if o.typ = 0 then ([discovery (o.payload.getD 0 0)], s)
  else if o.typ = 1 then
    let a := spdmAnswer (spdmDev s fn) (getFn s fn).spdm (o.payload.flatMap (fun w => leBytes 4 w.toNat))
    let b := a.fill s
    let t := modFn b.2 fn (fun x => { x with spdm := a.ver })
    (bytesToWords (padDword b.1), if a.head.getD 1 0 = 0x60 then reattested t fn else t)
  else let f := takeFree 32 s; ([f.1], f.2)

/-- DOE_REQUEST: an object of a supported type is answered. (log 49: PRESUMED.) -/
def execDoeRequest (fn : Fn) (o : DoeObject) (s : State) : Out :=
  if o.payload.length > 4096 then .refused (.illFormed "DOE_REQUEST")
  else if !(doeLive s fn) || decide (o.typ.toNat > 2) then .next s
  else
    let a := doeAnswer s fn o
    let r : DoeObject := { typ := o.typ, payload := a.1 }
    .next (send (modFn a.2 fn (fun x => { x with doe := some r })) [.doe fn r])

/-- DOE_ABORT: the object that the mailbox holds goes. -/
def execDoeAbort (fn : Fn) (s : State) : Out := .next (modFn s fn (fun f => { f with doe := none }))

/-- GET_MEASUREMENTS: on a virtual function REATTEST clears. -/
def execGetMeasurements (fn : Fn) (s : State) : Out :=
  if !(doeLive s fn) then .next s
  else
    .next (reattested (send s [.doe fn { typ := 1, payload := measurements s fn }]) fn)

/-! ### SEAL (R325) and the end of a mailbox command (R315, R316) -/
def sealCheck (s : State) (p : Nat) (policy : BitVec 8) (expect : BitVec 384) : Nat :=
  let q := getPart s p
  let st := partReg q 0x10
  if partState s p = ABSENT then 0x0E
  else if partState s p = SCRUB then 0x0D
  else if fld policy 7 2 ≠ 0 then 0x06
  else if partState s p = SEALED then 0x0A
  else if meas10 s p ≠ expect then 0x0B
  else if (bit policy 1 && fld st 7 6 != 0) || (bit policy 0 && !q.fn.secure) then 0x05 else 0

/-- The seal: log entry, state, policy, a new key and salt; a trace without Safelight ends (R405). -/
def sealPart (s : State) (p : Nat) (policy : BitVec 8) : State :=
  let s1 := setState (logAppend s p L_SEAL 0) p SEALED
  let key := random s1
  let salt := random key.2
  let s3 := modPart salt.2 p (fun k => { k.stat 4 4 (b2n (bit policy 0)) with policy := policy, sealKey := key.1, sealSalt := salt.1.setWidth 32, sealCtr := 0 })
  if bit (partReg (getPart s3 p) 0x10) 3 then s3 else traceEnd s3 p

/-- A SEAL whose turn has come: it is refused with its reason, or the partition is sealed; the response goes out. -/
def serveSeal (s : State) (p : PartIx) (policy : BitVec 8) (expect : BitVec 384) : State :=
  let fn : Fn := .vf p
  let c := sealCheck s p.val policy expect
  if c ≠ 0 then send s [.doe fn { typ := 2, payload := [w32 c] }]
  else
    let s1 := sealPart s p.val policy
    let q := getPart s1 p.val
    send s1 [.doe fn { typ := 2, payload := [0#32] ++ bytesToWords (leBytes 32 q.sealKey.toNat) ++ [q.sealSalt] }]
/-- SEAL is served in the order of the mailbox commands (R316): it waits behind those that have arrived before. (log 51: DEDUCED.) -/
def execSeal (p : PartIx) (policy : BitVec 8) (expect : BitVec 384) (s : State) : Out :=
  if !(doeLive s (.vf p)) then .next s
  else if s.hub.rot.queue.isEmpty then .next (serveSeal s p policy expect)
  else .next (modRot s (fun r => { r with queue := r.queue ++ [.seal p policy expect] }))
/-- The SEAL requests that now stand at the front, at most n of them. -/
def serveSeals : Nat → State → State
  | 0, s => s
  | n + 1, s => match s.hub.rot.queue with
    | .seal p policy expect :: rest => serveSeals n (serveSeal (modRot s (fun r => { r with queue := rest })) p policy expect)
    | _ => s

/-- Codes of R316. -/
def knownCode (c : Nat) : Bool := (decide (1 ≤ c) && decide (c ≤ 9)) || (decide (0x20 ≤ c) && decide (c ≤ 0x24))

/-- ROT_DONE (R315, R316): the command at the front completes; a code outside the table is refused; a teardown waits for the end of its pass. -/
def execRotDone (b : Mailbox) (s : State) : Out :=
  let r := s.hub.rot
  let code := fld (mbxReg s b 0x0) 7 0
  let res := if r.result.isNone && !(knownCode code) then some 0x06 else r.result
  if r.queue.head? ≠ some (.mbx b) then .next s
  else match res with
  | none => .next s
  | some c =>
    if code = 5 && decide (c = 0) && (getPart s (mbxArg s b 0)).pass.isSome then .next s
    else
      let st := mbxReg s b 0x4
      let st1 := setFld (setFld (setFld st 1 0 2) 15 8 c) 31 16 (fld st 31 16 + 1)
      let s0 := if code = 9 ∧ c = 0 then fwWritten s else s
      let s1 := modRot (setMbx s0 b 0x4 st1) (fun r => { r with queue := r.queue.tail, result := none })
      .next (serveSeals r.queue.length (if issuerPf b then raisePf s1 1 else s1))

/-! ### IDE (R307, R326) -/
/-- IDE_KM: a key set of the function's stream takes keys. -/
def execIdeKm (fn : Fn) (k : Fin 2) (s : State) : Out :=
  .next (if ready s && cfgLive s fn then modFn s fn (fun f => { f with ide := setBit f.ide k.val true }) else s)

/-- IDE_LOST. -/
def execIdeLost (fn : Fn) (s : State) : Out :=
  .next (match fn with | .vf p => ideDown s p.val | _ => modFn s fn (fun f => { f with secure := false }))

/-- IDE_RESTORED: the stream, whose keys are programmed, is Secure; what was held proceeds. -/
def execIdeRestored (fn : Fn) (s : State) : Out :=
  let f := getFn s fn
  if f.secure || f.ide = 0 || !(cfgLive s fn) then .next s
  else match fn with
    | .vf p =>
      let s1 := modPart s p.val (fun k => { k.stat 5 5 1 with fn := { k.fn with secure := true } })
      let s2 := if partState s p.val = SEALED ∧ bit (partReg (getPart s p.val) 0x10) 4 = true then logAppend s1 p.val L_IDE_RESTORED 0 else s1
      .next (flushFn s2 fn)
    | _ => .next (modFn s fn (fun f => { f with secure := true }))

/-! ### The sideband (R309): SB_STAT at 0x2000, SB_ERR at 0x2004 -/
/-- The address at which the sideband is reached: 0x52 on I2C, the dynamic address on I3C. -/
def sbAddr (s : State) : Nat := if bit (hubReg s.hub 0x2000) 8 then fld (hubReg s.hub 0x2000) 15 9 else 0x52
/-- SB_STAT once the bus owner has assigned an endpoint ID; none where the bus does not reach the sideband. -/
def sbStat (eid : BitVec 8) : SbBus → Option Word
  | .i2c a => if a = 0x52 then some (w32 (eid.toNat + 2 ^ 16)) else none
  | .setdasa a d => if a = 0x52 then some (w32 (eid.toNat + 2 ^ 8 + d.toNat * 2 ^ 9 + 2 ^ 16)) else none
  | .entdaa d => some (w32 (eid.toNat + 2 ^ 8 + d.toNat * 2 ^ 9 + 2 ^ 16))
/-- SET_ENDPOINT_ID. -/
def execSetEndpointId (eid : BitVec 8) (bus : SbBus) (s : State) : Out :=
  if !s.hub.pwr.good then .next s
  else match sbStat eid bus with
    | none => .next s
    | some w => .next (modHub s (fun h => h.setReg 0x2000 w))

/-- The answer to a sideband message of a type that is served now; what the standards leave to the module is a free value (log 1, log 49). -/
def mctpAnswer (s : State) (msg : Mctp) : List Byte × State :=
  if msg.typ = 0 then (mctpControl s msg.bytes).fill s
  else if msg.typ = 1 then (pldmAnswer s msg.bytes).fill s
  else
    let a := spdmAnswer (spdmDev s .pf) s.hub.sbSpdm msg.bytes
    let b := a.fill s
    (b.1, modHub b.2 (fun h => { h with sbSpdm := a.ver }))
/-- MCTP_MESSAGE: a message that fails its checks is dropped and counted; control and PLDM are answered while power is good, SPDM from
READY on. -/
def execMctpMessage (msg : Mctp) (s : State) : Out :=
  if !s.hub.pwr.good || msg.addr.toNat != sbAddr s then .next s
  else if !msg.good then .next (modHub s (fun h => h.setReg 0x2004 (bump 0xFFFF (hubReg h 0x2004) 1)))
  else if msg.typ = 0 ∨ msg.typ = 1 ∨ (msg.typ = 5 ∧ ready s = true) then
    let f := mctpAnswer s msg
    .next (send f.2 (mctpPackets msg.typ.toNat f.1))
  else .next s

end Sys2Proof.Machine
end

