-- ==== Sys2Proof/Machine/Power.lean ====
section
/-! DEFINITION. Supply, reset and start-up (R373 to R375, R390 to R392, R312, R314, R336), standby (R376 to R378), the power cap (R379, R380),
temperature (R383, R384), mesh weights in effect (R320). -/
namespace Sys2Proof.Machine

def modPwr (s : State) (f : Power → Power) : State := modHub s (fun h => { h with pwr := f h.pwr })

/-! ### What a reset and a loss of power leave -/
/-- Registers of the HUB_PM and HUB_SB pages. -/
def pmSbRegs (h : Hub) : Regs := h.regs.filter (fun e => decide (0x1000 ≤ e.1) && decide (e.1 < 0x3000))
/-- The flash and the replay-protected counters. -/
def flashOnly (r : Rot) : Rot :=
  { Rot.reset with slotA := r.slotA, slotB := r.slotB, helperOk := r.helperOk, keyOk := r.keyOk, helper := r.helper, idCert := r.idCert, fwKey := r.fwKey, primary := r.primary, trial := r.trial, minsvn := r.minsvn,
                   loads := r.loads, sessions := r.sessions, ctr3 := r.ctr3 }

/-- The device with every content lost but the flash; host memory, what has left the module and the commands that wait are not the device's. -/
def lostState (s : State) (regs : Regs) (p : Power) : State :=
  { State.reset with
    hub := { Hub.reset with txBase := payloadOut s.outbox, regs := regs, host := s.hub.host, nextTag := s.hub.nextTag, nextKey := s.hub.nextKey, rot := flashOnly s.hub.rot, pwr := p },
    outbox := s.outbox, free := s.free, pending := s.pending }

/-- PERST_N_ASSERT (R392): the device waits for step 4 of start-up; supply, power management and sideband go on, in the state ACTIVE.
(log 53: DEDUCED.) -/
def execPerstNAssert (s : State) : Out :=
  let s1 := lostState s (pmSbRegs s.hub) { s.hub.pwr with perst := true, link := false, facts := none, booting := false }
  .next (modHub s1 (fun h => (h.setReg 0x1000 0).setReg 0x1004 (setFld (hubReg h 0x1004) 1 0 0)))

/-- Power goes: every rail is off, and only the flash keeps its contents (R375). (log 52: DEDUCED; log 55: DESIGN CHOICE.) -/
def powerLost (s : State) (trip : Bool) : State :=
  lostState s [] { Power.reset with input := false, rails := 0, good := false, perst := s.hub.pwr.perst, trip := trip, alert := trip, facts := s.hub.pwr.facts }

/-! ### Start-up (R390) -/
/-- The boot stops: ROT_BOOT.FAIL, and a PLDM event over the sideband. -/
def bootFail (s : State) (code : Nat) : State :=
  let f := freeBytes s 32
  send (modHub f.2 (fun h => h.setReg 0x100100 (setFld (hubReg h 0x100100) 7 4 code))) (mctpPackets 1 f.1)

/-- The header of an image (R311): magic in bytes 0x00 to 0x03, SVN in 0x04 and 0x05, the length in 0x08 to 0x0B, the signature in 0x40 to 0x9F. -/
def imageSvn (i : Image) : Nat := fld i.header 47 32
def imageRsvZero (i : Image) : Bool := fld i.header 63 48 == 0 && fld i.header 511 96 == 0 && fld i.header 2047 1280 == 0
/-- R311, R312: an image is accepted. -/
def imageOk (minsvn : BitVec 16) (i : Image) : Bool :=
  fld i.header 31 0 == 0x44465756 && i.sigOk && imageRsvZero i && decide (minsvn.toNat ≤ imageSvn i) && decide (fld i.header 95 64 ≤ 2 ^ 24 - 256)

/-- The slot that the ROM runs (true: B), and whether it was the second that it tried; none without the firmware key (R311). -/
def bootSlot (r : Rot) : Option (Bool × Bool) :=
  let ok := fun (b : Bool) => r.keyOk && (if b then r.slotB else r.slotA).any (imageOk r.minsvn)
  let first := if r.trial then !r.primary else r.primary
  if ok first then some (first, false) else if ok (!first) then some (!first, true) else none

/-- R336: the logical clusters of a die take its working physical clusters in ascending order. -/
def working (bad : List Nat) (die : Nat) : List Nat := (List.range 42).filter (fun n => !(bad.contains (die * 64 + n)))
def physMap (bad : List Nat) : Tbl Nat := (List.range 160).map (fun cl => (cl, (working bad (cl / 40)).getD (cl % 40) 0))

/-- Physical clusters by die and number, physical cores, physical arrays, as numbers. -/
def physCl (r : Rot) (cl : Nat) : Nat := cl / 40 * 64 + tget r.phys cl 0
def arrayNo (pcl : Nat) (core : Option Nat) (kind : Nat) : Nat := match core with | some j => (pcl * 64 + j) * 4 + kind | none => (pcl * 64 + 63) * 4 + 3
def siteNo (a : PhysArray) : Nat := arrayNo (a.die.val * 64 + a.cl.val) (a.core.map (·.val)) a.kind.val
/-- The working cores of a physical cluster, in ascending order. -/
def goodCores (badCores : List Nat) (pcl : Nat) : List Nat := (List.range 34).filter (fun j => !(badCores.contains (pcl * 64 + j)))
/-- The core of its physical cluster behind a logical core. -/
def coreAt (r : Rot) (c : Nat) : Nat := tget r.coreMap c (c % 32)
/-- The map of a logical cluster's cores on a physical cluster, filled in ascending order. -/
def fillCores (badCores : List Nat) (cl pcl : Nat) : List (Nat × Nat) :=
  if badCores.any (fun b => b / 64 == pcl) then
    (((List.range 32).zip (goodCores badCores pcl)).map (fun x => (cl * 32 + x.1, x.2))).filter (fun e => e.2 != e.1 % 32)
  else []
/-- The spare cores of a logical cluster (R334). -/
def coreSpareOf (r : Rot) (cl : Nat) : List Nat :=
  let used := (List.range 32).map (fun i => coreAt r (cl * 32 + i))
  (goodCores r.badCores (physCl r cl)).filter (fun j => !(used.contains j))

/-- Usable spare clusters of a die in ascending order, the number of usable spare cores of a logical cluster (R334). -/
def spareOf (r : Rot) (die : Nat) : List Nat :=
  (working r.bad die).filter (fun n => !((List.range 40).any (fun i => tget r.phys (die * 40 + i) 0 == n)))
def coreSpares (h : Hub) (cl : Nat) : Nat := (coreSpareOf h.rot cl).length
/-- HUB_SPARES.CLUSTERS and CORES follow. -/
def countSpares (h : Hub) : Hub :=
  let c := ((List.range 4).map (fun d => (spareOf h.rot d).length)).sum
  let n := ((List.range 160).map (coreSpares h)).sum
  h.setReg 0x2C (setFld (setFld (hubReg h 0x2C) 3 0 c) 12 4 n)

/-- A sub-channel's frames move to the 1,024 highest-numbered free frames (R195). -/
def takeReloc (k : Mc) (j : Nat) : Mc :=
  let free := (List.range FRAMES).filter (fun f => !(k.used.contains f) && !(k.reloc.contains f))
  { k.setReg 0x200 (setBit (mcReg k 0x200) j true) with reloc := k.reloc ++ free.drop (free.length - 1024), failed := setBit k.failed j false }

/-- An array is repaired with up to 2 spare rows and 2 spare columns. -/
def arrayOk (x : PhysArray × Nat × Nat) : Bool := decide (x.2.1 ≤ 2) && decide (x.2.2 ≤ 2)
/-- The physical cores that do not work: those that fail, those with an array beyond repair. -/
def badCoresOf (b : BootFacts) : List Nat :=
  b.badCores.map (fun x => (x.1.val * 64 + x.2.1.val) * 64 + x.2.2.val) ++
    (b.badArrays.filter (fun x => !(arrayOk x))).filterMap (fun x => x.1.core.map (fun j => (x.1.die.val * 64 + x.1.cl.val) * 64 + j.val))
/-- The physical clusters that do not work: those that fail, those with staging SRAM beyond repair, those with fewer than 32 working cores. -/
def badOf (b : BootFacts) : List Nat :=
  b.badClusters.map (fun x => x.1.val * 64 + x.2.val) ++
    ((b.badArrays.filter (fun x => !(arrayOk x) && x.1.core.isNone)).map (fun x => x.1.die.val * 64 + x.1.cl.val)) ++
    (((badCoresOf b).map (· / 64)).eraseDups.filter (fun p => decide ((goodCores (badCoresOf b) p).length < 32)))
/-- Spare rows and columns that repair arrays. -/
def arraySpares (b : BootFacts) (n : Nat × Nat → Nat) : Tbl Nat :=
  (b.badArrays.filter (fun x => arrayOk x && n x.2 != 0)).foldl (fun t x => tset t (siteNo x.1) (n x.2)) []

/-- Spare lanes that failed their self-test (R334): bit 0 receive, bit 1 transmit. -/
def badSpare (b : BootFacts) (l : Nat) : BitVec 2 := setBit (setBit 0 0 (bit b.badLanes l)) 1 (bit b.badLanes (16 + l))
/-- Step 7: islands locked, the self-test of the spare lanes, the repair map (R336). -/
def bootMap (s0 : State) (b : BootFacts) : State :=
  let s := (List.range 16).foldl (fun s l => if badSpare b l = 0 then s else setLnk s l { getLnk s l with spareBad := badSpare b l }) s0
  modHub s (fun h =>
    let r := { h.rot with phys := physMap (badOf b), bad := badOf b, badCores := badCoresOf b, coreMap := [] }
    let r1 := { r with coreMap := (List.range 160).flatMap (fun cl => fillCores r.badCores cl (physCl r cl)) }
    let h1 := (h.setReg 0x1024 (w32 (b.lnkLock.toNat + b.mcLock.toNat * 2 ^ 16))).setReg 0x100100 (setBit (hubReg h 0x100100) 3 true)
    countSpares ({ h1 with rot := r1, rowSp := arraySpares b (·.1), colSp := arraySpares b (·.2) }.setReg 0x2C (w32 (((List.range 32).filter (fun i => !bit b.badLanes i)).length * 2 ^ 13))))
/-- A die cannot fill its logical clusters. -/
def dieShort (b : BootFacts) : Bool := (List.range 4).any (fun d => decide ((working (badOf b) d).length < 40))

/-- Step 8: packages and sub-channels that do not train. -/
def dramFails (b : BootFacts) : Bool :=
  b.dead != 0 || (List.range 16).any (fun m => decide (((b.badSub.filter (fun x => x.1.val == m)).map (·.2)).eraseDups.length > 1))
/-- A sub-channel that fails at both rates has had its package leave 14.4 Gb/s (R391). -/
def bootDram (s : State) (b : BootFacts) : State :=
  let s1 := b.badSub.foldl (fun s x => if bit (mcReg (getMc s x.1.val) 0x200) x.2.val then s else setMc s x.1.val (takeReloc (getMc s x.1.val) x.2.val)) s
  modHub s1 (fun h => h.setReg 0x4 (setBit (hubReg h 0x4) 1 (b.slow != 0 || !b.badSub.isEmpty)))

/-- Step 5's outcome in ROT_BOOT: slot, fallback, trial, SVN; the digest of the image that runs. -/
def bootRun (s : State) (slot second : Bool) : State :=
  let r := s.hub.rot
  let img := (if slot then r.slotB else r.slotA).getD { header := 0, sigOk := false, digest := 0 }
  let w := w32 (b2n slot + b2n second * 2 + b2n (r.trial && !second) * 2 ^ 8 + imageSvn img * 2 ^ 16)
  modHub s (fun h => { h.setReg 0x100100 w with rot := { r with trial := false, digest := img.digest } })

/-- Step 9: READY, the floor, the shortest cycle, which CAPACT follows (R379). -/
def bootReady (s : State) (b : BootFacts) : State :=
  let r := s.hub.rot
  let svn := fld (bootReg s) 31 16
  let s1 := modHub s (fun h =>
    ((((h.setReg 0x4 (setBit (setBit (hubReg h 0x4) 0 true) 2 (decide (r.minsvn.toNat < svn)))).setReg 0x100C (b.floorW.setWidth 32)).setReg 0x1028 950).setReg 0x1004 (setBit (hubReg h 0x1004) 2 false)).setReg 0x100104 (r.minsvn.setWidth 32))
  send s1 [.readiness]

/-- The bytes of an info string. -/
def asciiBytes (l : List Nat) : List Byte := l.map (BitVec.ofNat 8)
/-- Step 6 (R314): the identity is reconstructed, the keys are derived from its seed, FK is certified; the DRBG is seeded (R310). -/
def bootIdentity (s : State) : State :=
  let ik := Config.hkdfKey (asciiBytes [0x44, 0x5A, 0x56, 0x2D, 0x49, 0x4B])
  let fk := Config.hkdfKey (asciiBytes [0x44, 0x5A, 0x56, 0x2D, 0x46, 0x4B] ++ digestBytes s.hub.rot.digest)
  let hmac := Config.hkdf (asciiBytes [0x44, 0x5A, 0x56, 0x2D, 0x52, 0x50, 0x4D, 0x43])
  modHub s (fun h => { h.setReg 0x100100 (setBit (hubReg h 0x100100) 2 true) with
    rot := { h.rot with keys := some { ik := ik, hmac := hmac, fk := fk, fkCert := Config.certify ik fk }, drawn := 0, seeds := h.rot.seeds + 1 } })

/-- Steps 4 to 8; step 9 waits (R302; log 137: DESIGN CHOICE). -/
def boot (s : State) (b : BootFacts) : State :=
  if !b.counterOk then bootFail s 2
  else match bootSlot s.hub.rot with
    | none => bootFail (modRot s (fun r => { r with trial := false })) 1
    | some x =>
      let s1 := bootRun s x.1 x.2
      if !b.pufOk || !s1.hub.rot.helperOk then bootFail s1 3
      else
        let s2 := bootIdentity s1
        if dieShort b then bootFail s2 4
        else if dramFails b then bootFail (bootMap s2 b) 5
        else modPwr (bootDram (bootMap s2 b) b) (fun p => { p with booting := true })
/-- Step 9, once steps 4 to 8 are over. -/
def bootStep (s : State) : State :=
  match s.hub.pwr.booting, s.hub.pwr.facts with
  | true, some b => bootReady (modPwr s (fun p => { p with booting := false })) b
  | _, _ => s

/-- PERST_N_DEASSERT (R390): start-up begins if power is good, else with POWER_GOOD. What it finds is kept
for a later loss and return of power. -/
def execPerstNDeassert (b : BootFacts) (s : State) : Out :=
  if !s.hub.pwr.perst then .next s
  else
    let s1 := modPwr s (fun p => { p with perst := false, facts := some b })
    .next (if s.hub.pwr.good then boot s1 b else s1)

/-! ### Supply (R373 to R375, R384) -/
/-- INPUT_START_THRESHOLD (R373): conversion starts, unless the thermal trip holds. -/
def execInputStartThreshold (s : State) : Out :=
  .next (if s.hub.pwr.trip || s.hub.pwr.input then s else modPwr s (fun p => { p with input := true, rails := 0, good := false }))

/-- RAIL_IN_REGULATION (R374): the rails in order; after the last, POWER_GOOD. -/
def execRailInRegulation (k : Fin 7) (s : State) : Out :=
  let p := s.hub.pwr
  if !p.input || p.rails ≠ k.val then .next s
  else
    let s1 := modPwr s (fun p => { p with rails := k.val + 1, good := decide (k.val = 6) })
    .next (match p.perst, k.val, p.facts with
      | false, 6, some b => boot s1 b
      | _, _, _ => s1)

/-- INPUT_STOP_THRESHOLD (R373, R375). -/
def execInputStopThreshold (s : State) : Out := .next (if s.hub.pwr.input then powerLost s s.hub.pwr.trip else s)

/-- RAIL_OUT_OF_REGULATION (R374): all rails shut down, and conversion stops. -/
def execRailOutOfRegulation (k : Fin 7) (s : State) : Out :=
  .next (if s.hub.pwr.input && decide (k.val < s.hub.pwr.rails) then powerLost s false else s)

/-- INPUT_REMOVED_AFTER_TRIP (R384). -/
def execInputRemovedAfterTrip (s : State) : Out :=
  .next (if s.hub.pwr.trip then modPwr s (fun p => { p with trip := false, alert := false }) else s)

/-! ### Power management (R376 to R380, R383) -/
def pmState (s : State) : Nat := fld (hubReg s.hub 0x1004) 1 0
/-- CAPFAIL, TALERT, STBY_DONE (bits 3, 4, 5 of PM_STAT): the PWR cause when one goes from 0 to 1. -/
def pmEvent (s : State) (i : Nat) : State :=
  let w := hubReg s.hub 0x1004
  let s1 := modHub s (fun h => h.setReg 0x1004 (setBit w i true))
  if bit w i then s1 else raisePf s1 7
def pmReason (s : State) (c : Nat) : State := modHub s (fun h => h.setReg 0x1004 (setFld (hubReg h 0x1004) 15 8 c))

/-- TEMPERATURE_SAMPLE (R383, R384). (log 54: DEDUCED.) -/
def execTemperatureSample (t : Temps) (s : State) : Out :=
  let p := s.hub.pwr
  let rs := [t.c0, t.c1, t.c2, t.c3, t.h]
  let top := rs.foldl (fun a b => if a.toInt < b.toInt then b else a) t.c0
  let lim : Int := fld (hubReg s.hub 0x1020) 7 0
  if p.rails = 0 then .next s
  else if 110 ≤ top.toInt then .next (powerLost s true)
  else
    let w1 := hubReg s.hub 0x101C
    let old : BitVec 8 := BitVec.ofNat 8 (fld w1 15 8)
    let peak := if old.toInt < top.toInt then top else old
    let t0 := w32 (t.c0.toNat + t.c1.toNat * 2 ^ 8 + t.c2.toNat * 2 ^ 16 + t.c3.toNat * 2 ^ 24)
    let s1 := modHub s (fun h => (h.setReg 0x1018 t0).setReg 0x101C (w32 (t.h.toNat + peak.toNat * 2 ^ 8)))
    .next (if lim ≤ top.toInt then (if p.alert then s1 else pmEvent (modPwr s1 (fun p => { p with alert := true })) 4)
           else if top.toInt + 5 ≤ lim then modPwr s1 (fun p => { p with alert := false }) else s1)

/-- R379: the law on L; P in units of 0.1 W, the cap C in watts. -/
def nextLimit (dw c l : Nat) : Nat :=
  if dw > 10 * c then min (l + 10 * max 1 (100 * (dw - 10 * c) / (10 * c))) 1600
  else if 100 * dw ≤ 980 * c then max (l - 10) 950 else l

/-- CAP_CONTROL (R379, R393): PM_VIN, PM_PIN, L, CAPACT, CAPFAIL. -/
def execCapControl (mv : BitVec 17) (dw : BitVec 16) (s : State) : Out :=
  if s.hub.pwr.rails = 0 then .next s
  else
    let c := fld (hubReg s.hub 0x1008) 11 0
    let l := fld (hubReg s.hub 0x1028) 10 0
    let l1 := nextLimit dw.toNat c l
    let n := if decide (l = 1600) && decide (dw.toNat > 10 * c) then s.hub.pwr.overs + 1 else 0
    let s1 := modHub s (fun h => (((h.setReg 0x1010 (mv.setWidth 32)).setReg 0x1014 (dw.setWidth 32)).setReg 0x1028 (w32 l1)).setReg 0x1004 (setBit (hubReg h 0x1004) 2 (decide (l1 > 950))))
    .next (if n ≥ 100 then pmEvent (modPwr s1 (fun p => { p with overs := 0 })) 3 else modPwr s1 (fun p => { p with overs := n }))

/-- A write of PM_CAP (R380). -/
def pmCapWrite (s : State) (v : Word) : State :=
  let w := fld v 11 0
  if w < 1000 ∨ w > 2600 then pmReason s 0x06
  else if w < fld (hubReg s.hub 0x100C) 11 0 then pmReason s 0x11
  else modHub s (fun h => h.setReg 0x1008 (w32 w))
/-- PM_CAP (R380). -/
def execPmCap (fn : Fn) (v : Word) (s : State) : Out := .next (hubGuard s fn 0x1008 (pmCapWrite s v))

/-- R377: something is enabled. -/
def standbyBusy (s : State) : Bool :=
  (List.range 8).any (fun p =>
    let k := getPart s p
    (List.range 128).any (fun e => bit (entWord k e 0) 0) || fld (partReg k 0x184) 17 16 != 0 || bit (partReg k 0x180) 0 || bit (partReg k 0x20C) 0 || k.grants.hccs != 0) ||
  (List.range 16).any (fun m => stationOn s m) || (List.range 16).any (fun l => let k := getLnk s l; lnkOn k || (List.range 4).any (rgOn k)) ||
  s.clusters.any (fun c => (List.range 4).any (ringOn c.2))

/-- A masked write of PM_CTL (R377). In ENTERING or EXITING a change of STANDBY waits until the state is reached. -/
def pmCtlWrite (s : State) (v : Word) : State :=
  let old := hubReg s.hub 0x1000
  let new := mwApply 1 old v
  let put := fun (s : State) => modHub s (fun h => h.setReg 0x1000 new)
  let st := fun (s : State) (n : Nat) => modHub s (fun h => h.setReg 0x1004 (setFld (hubReg h 0x1004) 1 0 n))
  if bit new 0 && !bit old 0 then
    if standbyBusy s then pmReason s 0x0D else if pmState s = 0 then st (put s) 1 else put s
  else if bit old 0 && !bit new 0 then (if pmState s = 2 then st (put s) 3 else put s)
  else s
/-- STANDBY_ENTER (R377). -/
def execStandbyEnter (fn : Fn) (v : Word) (s : State) : Out := .next (hubGuard s fn 0x1000 (pmCtlWrite s v))
/-- STANDBY_EXIT (R377). -/
def execStandbyExit (fn : Fn) (v : Word) (s : State) : Out := .next (hubGuard s fn 0x1000 (pmCtlWrite s v))

/-- After standby exit every translation cache is empty (R198). -/
def emptyXlate (s : State) : State :=
  { s with clusters := s.clusters.map (fun c => (c.1, { c.2 with xlate := [] })), mcs := s.mcs.map (fun m => (m.1, { m.2 with stn := { m.2.stn with xlate := [] } })), hub := { s.hub with xlate := [] } }

/-- STANDBY_DONE (R377). -/
def execStandbyDone (s : State) : Out :=
  let on := bit (hubReg s.hub 0x1000) 0
  let st := fun (s : State) (n : Nat) => modHub s (fun h => h.setReg 0x1004 (setFld (hubReg h 0x1004) 1 0 n))
  if pmState s = 1 then .next (pmEvent (st s (if on then 2 else 3)) 5)
  else if pmState s = 3 then
    let s1 := modHub (emptyXlate s) (fun h => (h.setReg 0x1028 950).setReg 0x1004 (setBit (hubReg h 0x1004) 2 false))
    .next (pmEvent (st s1 (if on then 1 else 0)) 5)
  else .next s

/-- MESH_WEIGHT_WINDOW (R320): the weights that PART_QUOTA has set take effect at a router. -/
def execMeshWeightWindow (cl : ClIx) (s : State) : Out := running s <|
  let ws : Tbl Nat := (List.range 8).map (fun p => (p, fld (partReg (getPart s p) 0x24) 7 0))
  .next (setCl s cl.val { getCl s cl.val with weights := ws })

end Sys2Proof.Machine
end

