-- ==== Sys2Proof/Machine/Resilience.lean ====
section
/-! DEFINITION. Faults, loss reports, retirement, molts and spare tests (R194, R195, R334 to R345). -/
namespace Sys2Proof.Machine

/-- The 512 bytes of a row (16 KiB of accumulators: bank row / 8). -/
def setRow (s : State) (a : SramRow) (bs : List Byte) : State :=
  match a with
  | .data c r => let k := getCore s c.val; setCore s c.val { k with sram := mwrites k.sram (512 * r.val) bs }
  | .staging cl r => let k := getCl s cl.val; setCl s cl.val { k with staging := mwrites k.staging (512 * r.val) bs }
  | .prog c r =>
    let k := getCore s c.val
    let put := fun (t : Tbl (BitVec 64)) (i : Nat) => tset t (64 * r.val + i) (BitVec.ofNat 64 (leNat ((bs.drop (8 * i)).take 8)))
    setCore s c.val { k with prog := (List.range 64).foldl put k.prog }
  | .acc c r =>
    let k := getCore s c.val
    let b := tget k.banks (r.val / 8) Bank.reset
    let full := b.vals ++ List.replicate (1024 - b.vals.length) 0
    let ws := bytesToWords bs
    let i := r.val % 8 * 128
    setCore s c.val { k with banks := tset k.banks (r.val / 8) { b with vals := full.take i ++ ws ++ full.drop (i + 128) } }
def zeroRow (s : State) (a : SramRow) : State := setRow s a (List.replicate 512 0)

/-! ### Reports (R339 to R341) -/
/-- A loss report starts to each partition of a list. -/
def reportLoss (s : State) (ps : List Nat) : State :=
  modHub s (fun h => { h with lossDue := ps.foldl (fun w p => setBit w p true) h.lossDue })
/-- A fault, in the registers of the hub and of the partitions that it affects. -/
def faultEvent (s : State) (kind unit : Nat) (ps : List Nat) (loss uncovered : Bool) : State :=
  let s1 := partFaults (hubFault s kind unit (if loss then pidMask ps else 0) loss uncovered false) ps kind unit uncovered
  if loss then reportLoss s1 ps else s1

/-- LOSS_REPORT (R341): LOSS is set, and the open step is aborted. -/
def execLossReport (p : PartIx) (s : State) : Out :=
  if !bit s.hub.lossDue p.val then .next s
  else
    let s1 := modHub s (fun h => { h with lossDue := setBit h.lossDue p.val false })
    .next (abortStep (modPart s1 p.val (fun k => k.setReg 0x1A0 (setBit (partReg k 0x1A0) 0 true))) p.val)

/-! ### Cores (R339, R340) -/
/-- Station entries that include a core are disabled. -/
def disableEntries (s : State) (c : Nat) : State :=
  (getCore s c).ctxs.foldl (fun s x => match x.2.stn with | some r => stnDisable s r.part r.entry | none => s) s
def freshCore (s : State) (c : Nat) (dead : Bool) : State :=
  let k := getCore s c
  setCore s c { Core.reset with halt := k.halt, nextUid := k.nextUid, dead := dead }
/-- A logical core moves to the lowest usable spare core of its cluster; its old silicon is used no more. -/
def moveCore (s : State) (c : Nat) : State :=
  modHub s (fun h =>
    let r := h.rot
    let j := (coreSpareOf r (c / 32)).headD 0
    countSpares { h with rot := { r with coreMap := tset r.coreMap c j, badCores := r.badCores ++ [physCl r (c / 32) * 64 + coreAt r c] } })

def clusterOf (c : CoreIx) : FaultUnit := .cluster ⟨c.val / 32 % 160, Nat.mod_lt _ (by decide)⟩
/-- The core has no usable spare: it is out of service, and its cluster is to molt. -/
def coreUncovered (s : State) (c : CoreIx) : State :=
  let s1 := faultEvent (cancelMolt s (.core c)) 2 (placeCore c.val) (coreOwner s c.val).toList true true
  let s2 := freshCore (disableEntries s1 c.val) c.val true
  addMolt s2 (clusterOf c)

/-- CORE_FAULT (R339, R340). (log 56: DEDUCED.) -/
def execCoreFault (c : CoreIx) (s : State) : Out :=
  if coreSpares s.hub (c.val / 32) = 0 then .next (coreUncovered s c)
  else
    let s1 := faultEvent (cancelMolt s (.core c)) 2 (placeCore c.val) (coreOwner s c.val).toList true false
    let s2 := freshCore (disableEntries s1 c.val) c.val false
    .next (moltLog (moveCore s2 c.val) 2)

/-! ### SRAM rows -/
/-- The physical array of a row. -/
def rowArray (r : Rot) : SramRow → Nat
  | .data c _ => arrayNo (physCl r (c.val / 32)) (some (coreAt r c.val)) 0
  | .prog c _ => arrayNo (physCl r (c.val / 32)) (some (coreAt r c.val)) 1
  | .acc c _ => arrayNo (physCl r (c.val / 32)) (some (coreAt r c.val)) 2
  | .staging cl _ => arrayNo (physCl r cl.val) none 0
/-- Usable spare rows of a physical array; one is taken. -/
def arraySpare (h : Hub) (n : Nat) : Nat := 2 - tget h.rowSp n 0
def useArraySpare (s : State) (n : Nat) : State := modHub s (fun h => { h with rowSp := tset h.rowSp n (tget h.rowSp n 0 + 1) })
def rowSpares (h : Hub) (a : SramRow) : Nat := arraySpare h (rowArray h.rot a)
def useRowSpare (s : State) (a : SramRow) : State := useArraySpare s (rowArray s.hub.rot a)
/-- Free bytes (log 1). -/
def freeRow (s : State) : List Byte × State :=
  ((List.range 16).flatMap (fun i => leBytes 32 (Config.freeWord (s.free + i)).toNat), { s with free := s.free + 16 })
/-- The row has no usable spare: what it reads from then on is open. -/
def rowUncovered (s : State) (a : SramRow) : State :=
  let s1 := faultEvent (cancelMolt s (.row a)) 3 (rowPlace a) (rowOwner s a).toList true true
  let f := freeRow s1
  setRow f.2 a f.1

/-- SRAM_FAULT (R339). -/
def execSramFault (a : SramRow) (s : State) : Out :=
  if rowSpares s.hub a = 0 then .next (rowUncovered s a)
  else
    let s1 := faultEvent (cancelMolt s (.row a)) 3 (rowPlace a) (rowOwner s a).toList true false
    .next (moltLog (useRowSpare (zeroRow s1 a) a) 3)

/-! ### LPDDR6 sub-channels (R194, R195, R339) -/
/-- The units of the frames in use on a sub-channel, in ascending order. -/
def subUnits (k : Mc) (j : Nat) : List (Nat × Nat) :=
  (k.used.mergeSort (fun a b => decide (a ≤ b))).flatMap (fun f => ((List.range 8192).filter (fun u => subOf f u == j)).map (fun u => (f, u)))
/-- R194: up to 256 units of a controller are held poisoned; every frame affected beyond that has POISON in its page-table entry.
(log 57: DEDUCED.) -/
def poisonSub (s : State) (m j : Nat) : State :=
  let k := getMc s m
  let us := (subUnits k j).filter (fun u => !(k.poison.contains u))
  let room := 256 - k.poison.length
  let more := ((us.drop room).map (·.1)).eraseDups
  let s1 := setMc s m { k with poison := k.poison ++ us.take room }
  let s2 := (List.range 8).foldl (fun s p =>
    let hit := fun (e : BitVec 128) => ptValid e && ptPkg e == m && more.contains (ptFrame e)
    let pages := ((getPart s p).pt2.filter (fun e => hit e.2)).map (·.1)
    dropXlate (modPart s p (fun q => { q with pt2 := q.pt2.map (fun e => (e.1, if hit e.2 then setBit e.2 3 true else e.2)) })) p 2 (fun n => pages.contains n)) s1
  poisonCount s2 m

/-- A sub-channel retires: its units are on relocation frames, and the repair map has changed. -/
def retire (s : State) (m j : Nat) : State := moltLog (setMc s m (takeReloc (getMc s m) j)) 5
/-- A retirement waits for 1,024 free frames. -/
def awaitFrames (s : State) (m j : Nat) : State :=
  let k := getMc s m
  let w := mcReg k 0x200
  if bit w 20 then s else setMc s m (k.setReg 0x200 (setBit (setFld w 19 16 j) 20 true))
/-- PENDING after a retirement of j: the next sub-channel that waits, failed ones first. -/
def pendNext (s : State) (m j : Nat) : State :=
  let k := getMc s m
  let w := mcReg k 0x200
  if bit w 20 && fld w 19 16 == j then
    let s1 := setMc s m (k.setReg 0x200 (setBit (setFld w 19 16 0) 20 false))
    match (List.range 16).find? (fun i => bit k.failed i || s.hub.molts.any (fun u => match u with | .sub n i2 => n.val == m && i2.val == i && decide (freeCount k < 1024) | _ => false)) with
    | some i => awaitFrames s1 m i
    | none => s1
  else s

/-- SUBCHANNEL_FAULT (R339). -/
def execSubchannelFault (m : McIx) (j : Fin 16) (s : State) : Out :=
  let k := getMc s m.val
  if bit (mcReg k 0x200) j.val || bit k.failed j.val then .next s
  else
    let s1 := faultEvent (cancelMolt s (.sub m j)) 5 (subUnit m.val j.val) (packageUsers s m.val) true false
    let k1 := getMc s1 m.val
    let s2 := poisonSub (setMc s1 m.val { k1 with failed := setBit k1.failed j.val true }) m.val j.val
    .next (if freeCount (getMc s2 m.val) ≥ 1024 then pendNext (retire s2 m.val j.val) m.val j.val else awaitFrames s2 m.val j.val)

/-! ### Molts (R343 to R345) -/
/-- The cluster's switch is in step 2 of a context switch, or the cluster has no enabled context. -/
def atBoundary (s : State) (cl : Nat) : Bool := let k := getCl s cl; k.sw.isSome || fld (clReg k 0x100) 3 0 == 0

/-- The lowest working physical cluster that is not in use takes the logical cluster; its cores that were out of service return at zero. -/
def clusterMolt (s : State) (cl n : Nat) : State :=
  let s1 := modHub s (fun h =>
    let old := physCl h.rot cl
    let keep := h.rot.coreMap.filter (fun e => e.1 / 32 != cl)
    let r := { h.rot with phys := tset h.rot.phys cl n, bad := h.rot.bad ++ [old],
                          coreMap := (fillCores h.rot.badCores cl (cl / 40 * 64 + n)).foldl (fun t e => tset t e.1 e.2) keep }
    countSpares { h with rot := r })
  (List.range 32).foldl (fun s i => let c := cl * 32 + i; if (getCore s c).dead then freshCore s c false else setCore s c { getCore s c with retries := 0 }) s1

/-- The sub-channel's units are copied and switched. -/
def subMolt (s : State) (m : McIx) (j : Fin 16) : State := moltDone (pendNext (setMc s m.val (takeReloc (getMc s m.val) j.val)) m.val j.val) (.sub m j)

/-- An access to the package is in flight: a page that a roller channel reads, a record that its station updates (log 122: DEDUCED). -/
def mcInFlight (s : State) (m : Nat) : Bool :=
  s.mesh.any (fun p => p.dst == .mc m && (match p.body with | .pageRead .. => true | _ => false)) || (getMc s m).stn.work.isSome

/-- MOLT (R344): a pending molt takes effect at its boundary. A core whose cluster has no usable spare core left makes its cluster molt (R343). -/
def execMolt (u : FaultUnit) (s : State) : Out :=
  if !(s.hub.molts.contains u) then .next s
  else match u with
    | .row a => .next (if atBoundary s (rowCluster a) && decide (rowSpares s.hub a > 0) then moltDone (useRowSpare s a) u else s)
    | .core c =>
      .next (if coreSpares s.hub (c.val / 32) = 0 then addMolt (cancelMolt s u) (clusterOf c)
        else if atBoundary s (c.val / 32) then moltDone (moveCore (setCore s c.val { getCore s c.val with retries := 0 }) c.val) u else s)
    | .cluster cl => match spareOf s.hub.rot (cl.val / 40) with
      | n :: _ => .next (if atBoundary s cl.val then moltDone (clusterMolt s cl.val n) u else s)
      | [] => .next s
    | .lane l tx n =>
      let k := getLnk s l.val
      if lst k ≠ 6 then .next s
      else if tx then
        .next (if txSpared k || bit k.spareBad 1 then s else moltDone (loseLane (setLnk s l.val { k.stat 7 7 1 with txLane := some n.val })) u)
      -- The receive lane: the molt is done when lock is regained (LOCK_REGAINED).
      else .next (if rxSpared k || k.fault.isSome || bit k.spareBad 0 || k.keys.rekey then s else startSpare s l.val n.val false)
    | .sub m j =>
      .next (if freeCount (getMc s m.val) < 1024 then awaitFrames s m.val j.val else if mcInFlight s m.val then s else subMolt s m j)
    | .other _ => .next s

/-- MOLT_WORSENING (R343): a molt becomes pending; that of a core without a usable spare is its cluster's. -/
def execMoltWorsening (u : FaultUnit) (s : State) : Out :=
  match u with
  | .core c => .next (if (getCore s c.val).dead then s else if coreSpares s.hub (c.val / 32) > 0 then addMolt s u else addMolt s (clusterOf c))
  | .sub m j =>
    let k := getMc s m.val
    if bit (mcReg k 0x200) j.val || bit k.failed j.val then .next s
    else .next (let s1 := addMolt s u; if freeCount k < 1024 then awaitFrames s1 m.val j.val else s1)
  | .other _ => .next s
  | _ => .next (addMolt s u)

/-- SUBCHANNEL_RETIREMENT (R195): the pending one, once 1,024 frames are free. -/
def execSubchannelRetirement (m : McIx) (s : State) : Out :=
  let k := getMc s m.val
  let w := mcReg k 0x200
  let j : Fin 16 := ⟨fld w 19 16 % 16, Nat.mod_lt _ (by decide)⟩
  if !bit w 20 || decide (freeCount k < 1024) then .next s
  else if bit k.failed j.val then .next (pendNext (retire s m.val j.val) m.val j.val)
  else .next (if mcInFlight s m.val then s else subMolt s m j)

/-- UNCOVERED_FAULT (R340): a fault outside the covered classes, or without a usable spare. -/
def execUncoveredFault (u : FaultUnit) (s : State) : Out :=
  match u with
  | .core c => .next (coreUncovered s c)
  | .row a => .next (rowUncovered s a)
  | .lane l tx n =>
    .next (laneUncovered (cancelMolt s u) l.val (laneUnit l.val tx n.val))
  | .sub m j =>
    let s1 := faultEvent (cancelMolt s u) 5 (subUnit m.val j.val) (packageUsers s m.val) true true
    let k := getMc s1 m.val
    .next (setMc s1 m.val { k with failed := setBit k.failed j.val (!(bit (mcReg k 0x200) j.val)) })
  | .cluster cl => .next (faultEvent (cancelMolt s u) 1 (placeCl cl.val) (clusterOwners s cl.val) false true)
  | .other _ => .next (faultEvent s 0 0 (unitParts s u) false true)

/-! ### Spare tests (R337) -/
/-- A working core of the silicon that no logical core uses: of a cluster in use one that is left over, of a spare cluster any. -/
def spareCore (r : Rot) (pcl j : Nat) : Bool :=
  (goodCores r.badCores pcl).contains j && !(r.bad.contains pcl) &&
    (List.range 160).all (fun cl => physCl r cl != pcl || (coreSpareOf r cl).contains j)
/-- It is unusable; a spare cluster that is left with fewer than 32 working cores is unusable with it. -/
def spareCoreGone (h : Hub) (pcl j : Nat) : Hub :=
  let r := { h.rot with badCores := h.rot.badCores ++ [pcl * 64 + j] }
  let bad := if (spareOf r (pcl / 64)).contains (pcl % 64) && decide ((goodCores r.badCores pcl).length < 32) then r.bad ++ [pcl] else r.bad
  countSpares { h with rot := { r with bad := bad } }

/-- SPARE_TEST: a spare that fails is unusable until the next boot. -/
def execSpareTest (sp : Spare) (ok : Bool) (s : State) : Out :=
  if ok then .next s
  else match sp with
    | .cluster d n =>
      .next (if (spareOf s.hub.rot d.val).contains n.val then modHub s (fun h => countSpares { h with rot := { h.rot with bad := h.rot.bad ++ [d.val * 64 + n.val] } }) else s)
    | .core d n j => .next (if spareCore s.hub.rot (d.val * 64 + n.val) j.val then modHub s (fun h => spareCoreGone h (d.val * 64 + n.val) j.val) else s)
    | .row a => .next (if arraySpare s.hub (siteNo a) > 0 then useArraySpare s (siteNo a) else s)
    | .lane l tx =>
      let k := getLnk s l.val
      let i := b2n tx
      let used := if tx then txSpared k else rxSpared k
      if bit k.spareBad i || used then .next s
      else .next (loseLane (setLnk s l.val { k with spareBad := setBit k.spareBad i true }))

end Sys2Proof.Machine
end

