-- ==== Sys2Proof/Machine/Page.lean ====
section
/-! DEFINITION. The indirect space of a cluster (R359): locations, the firewall in front of them, reads and writes; sealed reads (R329 to R331). -/
namespace Sys2Proof.Machine

/-- A location: a register of the cluster page or of a core's page; a descriptor word; s24 to s31; half a program word; an accumulator
element; a word of data SRAM. -/
inductive IndLoc
  | cl (off : Nat)
  | core (c off : Nat)
  | desc (c x n w : Nat)
  | shared (c x n : Nat)
  | prog (c x w : Nat) (hi : Bool)
  | acc (c b i : Nat)
  | sram (c a : Nat)
  | none_
  deriving DecidableEq, Repr

/-- R358, R359: the location of an indirect address in an existing cluster. -/
def indLoc (a : Word) : IndLoc :=
  let c := fld a 31 24 * 32 + fld a 23 19
  let off := fld a 17 2 * 4
  if bit a 18 then .sram c off
  else if off < 0x10000 then .cl off
  else if off < 0x10100 then .core c (off - 0x10000)
  else if 0x10400 ≤ off ∧ off < 0x11400 then let o := off - 0x10400; .desc c (o / 0x400) (o % 0x400 / 0x40) (o % 0x40 / 4)
  else if 0x11400 ≤ off ∧ off < 0x11480 then let o := off - 0x11400; .shared c (o / 0x20) (24 + o % 0x20 / 4)
  else if 0x20000 ≤ off ∧ off < 0x24000 then let o := off - 0x20000; .prog c (o / 0x1000) (o % 0x1000 / 8) (o / 4 % 2 == 1)
  else if 0x30000 ≤ off ∧ off < 0x34000 then let o := off - 0x30000; .acc c (o / 0x1000) (o % 0x1000 / 4)
  else .none_

/-- The router in front of a location of cluster `cl`. -/
def locNode (cl : Nat) : IndLoc → Node
  | .core c _ | .desc c _ _ _ | .shared c _ _ | .prog c _ _ _ | .acc c _ _ | .sram c _ => .core c
  | _ => .cluster cl
/-- R329: what a location holds is data. -/
def locData : IndLoc → Bool
  | .shared .. | .prog .. | .acc .. | .sram .. => true
  | _ => false

/-! ### The cluster page -/
/-- A word of the cluster page. -/
inductive ClReg
  | swCtl
  | ring (ch field : Nat)
  | val (n : Nat)
  | cfg (n : Nat)
  | route (ctx net slot : Nat)
  | steer (ctx u : Nat)
  | err0
  | ro
  /-- A holding copy: a write is ignored (R4). -/
  | snap
  /-- Read-clear. -/
  | rc
  | none_
  deriving DecidableEq, Repr

def clDecode (off : Nat) : ClReg :=
  if off = 0x100 then .swCtl
  else if off = 0x108 ∨ off = 0x120 ∨ off = 0x180C then .rc
  else if off = 0x104 ∨ off = 0x10C ∨ off = 0x110 ∨ off = 0x124 ∨ off = 0x128 ∨ (0x140 ≤ off ∧ off < 0x180) then .ro
  else if off = 0xF00 ∨ off = 0xF10 ∨ off = 0xF14 ∨ off = 0x1400 ∨ off = 0x1404 ∨ off = 0x1804 ∨ off = 0x1808 then .ro
  else if 0x1900 ≤ off ∧ off < 0x1960 then .ro
  else if off = 0xF18 ∨ off = 0xF1C ∨ (0x1A00 ≤ off ∧ off < 0x1A60) then .snap
  else if 0x1000 ≤ off ∧ off < 0x1400 then (if off % 8 = 0 then .val ((off - 0x1000) / 8) else .cfg ((off - 0x1000) / 8))
  else if off = 0x1800 then .err0
  else if 0x1820 ≤ off ∧ off < 0x1860 then .ring ((off - 0x1820) / 0x10) (off % 0x10)
  else if 0x2000 ≤ off ∧ off < 0x2800 then
    let net := (off - 0x2000) % 0x200 / 0x80
    let slot := off % 0x80 / 4
    if net < 3 ∧ slot < netSlots net then .route ((off - 0x2000) / 0x200) net slot else .none_
  else if 0x3000 ≤ off ∧ off < 0x3100 then .steer ((off - 0x3000) / 0x40) (off % 0x40 / 4)
  else .none_

def hiveObj (cl n : Nat) : ObjRef := .hive ⟨cl % 160, Nat.mod_lt _ (by decide)⟩ ⟨n % 128, Nat.mod_lt _ (by decide)⟩
def portObj (l n : Nat) : ObjRef := .port ⟨l % 16, Nat.mod_lt _ (by decide)⟩ ⟨n % 64, Nat.mod_lt _ (by decide)⟩

/-- R115, R141: the check of a route entry. -/
def routeRefusal (s : State) (cl off pid : Nat) (stays : Bool) : Option Nat :=
  let k := getCl s cl
  let r := clReg k off
  ownCheck s pid (lastOwner k.regs off (rtPid r)) (rtValid r) (pid == 0xF && stays)
/-- A steering entry belongs to the partition of its data input's route. (log 61: DEDUCED.) -/
def steerRefusal (s : State) (cl ctx u pid : Nat) : Option Nat :=
  let k := getCl s cl
  let w := steer k ctx u
  let o := if bit w 0 then steerPid k ctx u else none
  let r := routeOff ctx (stNet w) (stInD w)
  ownCheck s pid (o.getD (if (tfind k.regs (steerOff ctx u)).isSome then lastOwner k.regs r (rtPid (clReg k r)) else 8)) o.isSome false

/-- The firewall in front of the cluster page; `wr` is the word that a write carries. A write to an RO location is refused (R359). -/
def clRefusal (s : State) (cl off pid : Nat) (wr : Option Word) : Option Nat :=
  let stays := fun (old : Word) => match wr with | some v => mwStaysOn old v | none => false
  match clDecode off with
  | .ring ch f => (ringRefusal s cl ch (f == 0 && stays (clReg (getCl s cl) off)) pid).orElse (fun _ => if f = 0xC ∧ wr.isSome = true then some TYPE_NOT_PERMITTED else none)
  | .val n => objRefusal s pid (hiveObj cl n)
  | .cfg n => ownCheck s pid (objOwner s (hiveObj cl n)) (cfgOn (objCfg s (hiveObj cl n))) (pid == 0xF && stays (objCfg s (hiveObj cl n)))
  | .route _ _ _ => routeRefusal s cl off pid (match wr with | some v => bit v 0 | none => false)
  | .steer x u => steerRefusal s cl x u pid
  | .ro => (sharedRefusal s pid).orElse (fun _ => if wr.isSome then some TYPE_NOT_PERMITTED else none)
  | _ => sharedRefusal s pid

/-- A route entry is written: PID is stamped with VALID; while its context is enabled the write is discarded (R116). -/
def routeWrite (s : State) (cl ctx off pid : Nat) (v : Word) : State :=
  let k := getCl s cl
  let old := clReg k off
  if swEnabled k ctx then s
  else setCl s cl (k.setReg off (setFld (v &&& 0x0FFFFFFF#32) 30 28 (if bit v 0 then pid else rtPid old)))
/-- R116, R127: the reserved field is kept for the check, and reads 0 (R6). (log 133: DEDUCED.) -/
def steerWrite (s : State) (cl ctx u : Nat) (v : Word) : State :=
  let k := getCl s cl
  if swEnabled k ctx then s else setCl s cl (k.setReg (steerOff ctx u) v)

/-- Sealing drops the operator's writes to what a partition owns (R326). (log 69: DEDUCED.) -/
def sealDropAt (s : State) (fn : Fn) (p : Option Nat) (eff : State) : State :=
  match p with
  | some p => if fn = .pf then sealDrop s p 0xF eff else eff
  | none => eff

/-- The partition that owns a valid route or steering entry of the page. -/
def entryOwner (k : Cluster) (off : Nat) : Option Nat :=
  match clDecode off with
  | .route _ _ _ => let r := clReg k off; if rtValid r then some (rtPid r) else none
  | .steer x u => if bit (steer k x u) 0 then steerPid k x u else none
  | _ => none
/-- The effect of a write that has passed. -/
def clPageWrite (s : State) (fn : Fn) (cl off pid : Nat) (v : Word) : State :=
  let k := getCl s cl
  match clDecode off with
  | .swCtl => setCl s cl (swCtlWrite k cl v)
  | .ring ch f => if f = 0 then ringCtlWrite s cl ch pid v else if f = 4 then setCl s cl (k.setReg off (v &&& 0x7FFFFF#32)) else if f = 8 then setCl s cl (k.setReg off (v &&& 0xFFF#32)) else s
  | .val n => objValWrite s (hiveObj cl n) fn pid v
  | .cfg n => objCfgBy s fn (hiveObj cl n) pid v
  | .route x _ _ => sealDropAt s fn (entryOwner k off) (routeWrite s cl x off pid v)
  | .steer x u => sealDropAt s fn (entryOwner k off) (steerWrite s cl x u v)
  | .err0 => setCl s cl (k.setReg off (if bit v 31 then setBit (clReg k off) 31 false else clReg k off))
  | _ => s

/-- A read that has passed: fields that follow the state, then the effect of reading (R4, R136, R396). -/
def clPageRead (s : State) (cl off : Nat) : Word × State :=
  let k := getCl s cl
  let w := clReg k off
  if off = 0x104 then (setBit (setBit w 2 k.sw.isSome) 3 ((heldTokens k).any (fun t => t.ctx != swCtx k)), s)
  else if off = 0x108 then (w, setCl s cl ((k.setReg off 0).setReg 0x104 (setBit (setBit (clReg k 0x104) 4 false) 6 false)))
  else if off = 0x120 ∨ off = 0x180C then (w, setCl s cl (k.setReg off 0))
  else if off = 0x1400 then (setFld w 8 0 k.hive.waiters.length, s)
  else if 0x3000 ≤ off ∧ off < 0x3100 then (w &&& 0x0FFFFFFF#32, s)
  else if off = 0xF10 then let c := clCycles s cl; (c.1.setWidth 32, c.2)
  else if off = 0xF14 then let c := clCycles s cl; (w32 (fld c.1 63 32), c.2)
  else (w, s)

/-! ### The core's page (R90, R126, R162, R395) -/
/-- RO registers; a write of a holding copy (0x60 to 0x7C, 0xC8, 0xD0 to 0xDC) is ignored (R4). -/
def coreRo (off : Nat) : Bool :=
  [0x4, 0x8, 0xC].contains off || (decide (0x20 ≤ off) && decide (off < 0x40)) || (decide (0x90 ≤ off) && decide (off < 0xA0))
/-- A write of a core register. -/
def corePageWrite (s : State) (c off : Nat) (v : Word) : State :=
  let k := getCore s c
  if off = 0 then coreCtlWrite s c v
  else if off = 0x80 then setCore s c (k.setReg off (coreReg k off &&& ~~~(v &&& 0x3F#32)))
  else if off = 0x84 then setCore s c (k.setReg off (mwApply 0xF (coreReg k off) v))
  else s
def corePageRead (s : State) (c off : Nat) : Word × State :=
  let k := getCore s c
  let w := coreReg k off
  if off = 0x4 then (setFld (setFld (setBit w 1 (ctxOf k k.active).setup.isSome) 4 3 k.active) 8 5 k.firings.length, s)
  else if off = 0x10 then (w, setCore s c ((k.setReg off 0).setReg 0x4 (setBit (coreReg k 0x4) 2 false)))
  else if off = 0x88 then (w, setCore s c (k.setReg off 0))
  else (w, s)

/-! ### Locations -/
/-- An enabled station entry covers the core and the context (R362). -/
def covered (s : State) (c x : Nat) : Bool := (ctxOf (getCore s c) x).stn.isSome
def halfWord (d : BitVec 64) (hi : Bool) : Word := if hi then w32 (fld d 63 32) else w32 (fld d 31 0)

/-- The firewall in front of a location (R140, R359, R362). (log 60: DEDUCED.) -/
def locRefusal (s : State) (cl pid : Nat) (wr : Option Word) (l : IndLoc) : Option Nat :=
  let ro := fun (c : Nat) (b : Bool) => (coreRefusal s c pid).orElse (fun _ => if b && wr.isSome then some TYPE_NOT_PERMITTED else none)
  match l with
  | .cl off => clRefusal s cl off pid wr
  | .core c off => ro c (coreRo off)
  | .desc c _ _ _ | .shared c _ _ | .acc c _ _ => ro c true
  | .prog c x _ _ => ro c (covered s c x)
  | .sram c _ => ro c false
  | .none_ => sharedRefusal s pid

def locWrite (s : State) (fn : Fn) (cl pid : Nat) (v : Word) (l : IndLoc) : State :=
  match l with
  | .cl off => clPageWrite s fn cl off pid v
  | .core c off => corePageWrite s c off v
  | .prog c x w hi =>
    let k := getCore s c
    let d := tget k.prog (512 * x + w) (0 : BitVec 64)
    sealDropAt s fn (coreOwner s c) (setCore s c { k with prog := tset k.prog (512 * x + w) (if hi then setFld d 63 32 v.toNat else setFld d 31 0 v.toNat) })
  | .sram c a => let k := getCore s c; sealDropAt s fn (coreOwner s c) (setCore s c { k with sram := mwrites k.sram a (leBytes 4 v.toNat) })
  | _ => s

/-- What a location holds, and the effect of reading it. -/
def locRead (s : State) (cl : Nat) (l : IndLoc) : Word × State :=
  match l with
  | .cl off => clPageRead s cl off
  | .core c off => corePageRead s c off
  | .desc c x n w => (w32 (fld (tget (ctxOf (getCore s c) x).descs n (0 : Desc)) (32 * w + 31) (32 * w)), s)
  | .shared c x n => (tget (ctxOf (getCore s c) x).shared n 0, s)
  | .prog c x w hi => (halfWord (tget (getCore s c).prog (512 * x + w) (0 : BitVec 64)) hi, s)
  | .acc c b i => ((tget (getCore s c).banks b Bank.reset).vals.getD i 0, s)
  | .sram c a => (w32 (mreadNat (getCore s c).sram a 4), s)
  | .none_ => (0, s)

/-! ### Sealed reads (R330, R331) -/
/-- A read of a sealed partition's data by the physical function: path 0 for BAR0, 1 for IND_DATA; ROT_SL0 to ROT_SL7 take nonce and tag.
(log 10: DESIGN CHOICE.) -/
def sealedWord (s : State) (p path loc : Nat) (w : Word) : Word × State :=
  let q := getPart s p
  if !bit (partReg q 0x10) 3 then (0xFFFFFFFF#32, s)
  else
    let g := Config.gcmWord q.sealKey (q.sealSalt ++ q.sealCtr) (BitVec.ofNat 64 (p % 8 + path * 8 + loc * 256)) w
    let sl : List Nat := [fld q.sealCtr 31 0, fld q.sealCtr 63 32, p % 8, fld g 63 32, fld g 95 64, fld g 127 96, fld g 159 128, (hubReg s.hub 0x10021C).toNat + 1]
    let s1 := modPart s p (fun k => { k with sealCtr := k.sealCtr + 1 })
    (w32 (fld g 31 0), modHub s1 (fun h => (sl.zip (List.range 8)).foldl (fun h x => h.setReg (0x100200 + 4 * x.2) (w32 x.1)) h))

/-- The sealed partition whose core the physical function would write at a location: the write is dropped and counted (R326), also where the location
takes no writes at all. -/
def sealedOwner (s : State) (fn : Fn) (l : IndLoc) : Option Nat :=
  match l with
  | .desc c .. | .shared c _ _ | .prog c _ _ _ | .acc c _ _ | .sram c _ => if fn = .pf then (coreOwner s c).filter (fun p => partState s p == SEALED) else none
  | _ => none

/-- A write of the physical function that the firewall refuses at a sealed partition's entry is dropped all the same, and counts there too (R141, R326). -/
def sealCount (s : State) (fn : Fn) (p : Option Nat) : State := sealDropAt s fn p s
/-- The same, of an entry that an indirect access names. -/
def sealCountAt (s : State) (fn : Fn) (cl : Nat) : IndLoc → State
  | .cl off => sealCount s fn (entryOwner (getCl s cl) off)
  | _ => s

/-- The sealed partition whose data the physical function reads at a location. -/
def sealedAt (s : State) (fn : Fn) (l : IndLoc) : Option Nat :=
  match l with
  | .shared c _ _ | .prog c _ _ _ | .acc c _ _ | .sram c _ => if fn = .pf then (coreOwner s c).filter (fun p => partState s p == SEALED) else none
  | _ => none

/-- The reader's own operations at the hive take effect before it reads a register of the cluster (R139). -/
def valsFirst (s : State) (fn : Fn) (cl : Nat) (l : IndLoc) : State :=
  match l with
  | .cl _ => ownSyncsFirst s (objUnit (hiveObj cl 0)) fn
  | _ => s

/-- A read through an indirect address that has passed the firewall. -/
def indRead (s : State) (fn : Fn) (a : Word) : Word × State :=
  let l := indLoc a
  let r := locRead (valsFirst s fn (fld a 31 24) l) (fld a 31 24) l
  match sealedAt s fn l with
  | some p => sealedWord s p 1 a.toNat r.1
  | none => r

end Sys2Proof.Machine
end

