-- ==== Sys2Proof/Machine/Bar.lean ====
section
/-! DEFINITION. The address map of BAR0 and of the partition window (R353 to R357, R371, R372): what a read or a write of a directly reached register does. -/
namespace Sys2Proof.Machine

/-! ### Places (R297, R353, R354, R357) -/
/-- A place that a function reaches directly. Registers of the hub die stand under their offset in BAR0. -/
inductive BarLoc
  | hub (off : Nat)
  | part (p off : Nat)
  | ind (i : IndPort) (off : Nat)
  | clId (cl : Nat)
  | lnk (l off : Nat)
  | mc (m off : Nat)
  /-- The aperture of a partition's window. -/
  | aper (p off : Nat)
  /-- The MSI-X table and pending bits of the function itself. -/
  | msix (off : Nat)
  /-- The doorbell page of a virtual function's BAR2, and what follows it. -/
  | bell (p off : Nat)
  | none_
  deriving DecidableEq, Repr

/-- R357: address bit 10 of a half-decoded page is not decoded. -/
def halfDecode (o : Nat) : Nat := if o / 0x400 % 2 = 1 then o - 0x400 else o
def partIx (p : Nat) : PartIx := ⟨p % 8, Nat.mod_lt _ (by decide)⟩
def clIx (cl : Nat) : ClIx := ⟨cl % 160, Nat.mod_lt _ (by decide)⟩

def partLoc (p o : Nat) : BarLoc :=
  if o < 0xC then .ind (.part (partIx p)) o
  else if 0x1000 ≤ o ∧ o < 0x2000 then .part p (halfDecode o)
  else .part p o
/-- A compute die: the doorways of its clusters, the counters of its die-to-die interfaces. -/
def dieLoc (d o : Nat) : BarLoc :=
  let cl := d * 40 + o / 0x10000
  let y := halfDecode (o % 0x10000)
  if o < 0x280000 then
    (if o % 0x10000 ≥ 0x1000 then .none_
     else if y < 0xC then .ind (.door (clIx cl)) y
     else if y = 0x10 then .clId cl
     else .none_)
  else if 0x300000 ≤ o ∧ o < 0x300300 then .hub (0x1000000 + d * 0x400000 + o)
  else .none_
def barLoc (o : Nat) : BarLoc :=
  if o < 0x1000 then .hub o
  else if o < 0x3000 then .hub (halfDecode o)
  else if o < 0xF0000 then .none_
  else if o < 0x100000 then .msix (o - 0xF0000)
  else if o < 0x101000 then .hub (halfDecode o)
  else if o < 0x200000 then .none_
  else if o < 0x210000 then (if o < 0x20000C then .ind .pf (o - 0x200000) else .none_)
  else if o < 0x290000 then partLoc ((o - 0x210000) / 0x10000) (o % 0x10000)
  else if o < 0x300000 then .none_
  else if o < 0x400000 then .hub o
  else if o < 0x500000 then .lnk ((o - 0x400000) / 0x10000) (o % 0x10000)
  else if o < 0x800000 then .none_
  else if o < 0x900000 then .mc ((o - 0x800000) / 0x10000) (o % 0x10000)
  else if o < 0x1000000 then .none_
  else if o < 0x2000000 then dieLoc ((o - 0x1000000) / 0x400000) (o % 0x400000)
  else .none_
/-- Offsets from here on name bytes of a virtual function's BAR2; its BAR0 is smaller. (log 126: DESIGN CHOICE.) -/
def BAR2 : Nat := 0x2000000
/-- R297: the partition window, the doorbell page. -/
def windowLoc (p o : Nat) : BarLoc :=
  if BAR2 ≤ o then .bell p (o - BAR2)
  else if o < 0x10000 then partLoc p o
  else if 0x40000 ≤ o ∧ o < 0x80000 then .aper p (o - 0x40000)
  else if 0xF0000 ≤ o ∧ o < 0x100000 then .msix (o - 0xF0000)
  else .none_
/-- The dword that a function reaches. A host-class core reaches the device by the offsets of BAR0, under its partition's PID; the
ports that carry the physical function's PID and the MSI-X tables are not its own. -/
def fnLoc (fn : Fn) (off : Nat) : BarLoc :=
  let o := off / 4 * 4
  match fn with
  | .pf => barLoc o
  | .vf p => windowLoc p.val o
  | .hcc _ => match barLoc o with
    | .ind (.part p) x => .ind (.part p) x
    | .ind _ _ | .msix _ | .bell _ _ => .none_
    | l => l

/-- What stops a read of a register that a function makes: it is logged and counted (R142, R298, R378). -/
def readStop (s : State) (fn : Fn) (dst : Node) (addr : Nat) (check : Nat → Option Nat) : Option State :=
  if fnHeld s fn then some (hostRef s fn)
  else if stopped s dst then some (stopCount s fn)
  else match fnPid s fn with
  | none => some s
  | some pid => (check pid).map (fun code => ddTrip (hostRef (fwRefuse s dst pid 6 code (nodeCode (fnNode fn)) addr) fn) (fnNode fn) dst 1 1)
/-- A read that is stopped reads all ones. -/
def ONES : Word := 0xFFFFFFFF#32
/-- A register read that a function makes at a unit: refused, it is logged and counted and reads ones (log 93: DEDUCED). -/
def guardedRead (s : State) (fn : Fn) (dst : Node) (addr : Nat) (check : Nat → Option Nat) (eff : Word × State) : Word × State :=
  match readStop s fn dst addr check with
  | some t => (ONES, t)
  | none => (eff.1, ddTrip eff.2 (fnNode fn) dst 1 2)

/-! ### Interrupt enables (R305, R370) -/
/-- A message for every cause whose EN bit goes from 0 to 1 while its STAT bit is 1. -/
def partIrqEnWrite (s : State) (p : Nat) (v : Word) : State :=
  let k := getPart s p
  let old := partReg k 0x44
  let new := mwApply 0xFFF old v
  ((List.range 12).filter (fun b => bit new b && !(bit old b) && bit (partReg k 0x40) b)).foldl (fun s b => partMsg s p (irqVec (partReg k) 0x48 b))
    (setPart s p (k.setReg 0x44 new))
/-- PART_IRQ_EN (R305). -/
def execPartIrqEn (fn : Fn) (p : PartIx) (v : Word) (s : State) : Out := .next (partGuard s fn p.val 0x44 (partIrqEnWrite s p.val v))

def hubIrqEnWrite (s : State) (v : Word) : State :=
  let old := hubReg s.hub 0x14
  let new := mwApply 0xFF old v
  ((List.range 8).filter (fun b => bit new b && !(bit old b) && bit (hubReg s.hub 0x10) b)).foldl (fun t b => pfMsg t (irqVec (hubReg s.hub) 0x18 b))
    (modHub s (fun h => h.setReg 0x14 new))
/-- HUB_IRQ_EN (R370). -/
def execHubIrqEn (fn : Fn) (v : Word) (s : State) : Out := .next (hubGuard s fn 0x14 (hubIrqEnWrite s v))

/-! ### The contact sheet (R368, R378, R397) -/
def allIslands : List Island :=
  (List.finRange 160).map .cluster ++ (List.finRange 16).map .mc ++ (List.finRange 16).map .lnk ++ [.hub] ++ (List.finRange 4).map .dd
/-- A write of SNAP_CTRL. SNAP_REF latches the reference count, a free value (log 5). -/
def snapWrite (s : State) (v : Word) : State :=
  let st := hubReg s.hub 0x300004
  if !(bit (mwApply 1 0 v) 0) then s
  else if bit st 16 && pmActive s then
    let lo := takeFree 32 s
    let hi := takeFree 32 lo.2
    modHub hi.2 (fun h =>
      { ((h.setReg 0x300004 (setBit (setFld st 15 0 (fld st 15 0 + 1)) 16 false)).setReg 0x300008 lo.1).setReg 0x30000C hi.1 with markers := allIslands, acks := [] })
  else modHub s (fun h => h.setReg 0x300004 (setFld st 31 24 (fld st 31 24 + 1)))
/-- SNAP_CTRL_TAKE (R368). -/
def execSnapCtrlTake (fn : Fn) (v : Word) (s : State) : Out := .next (hubGuard s fn 0x300000 (snapWrite s v))

/-! ### Trace control (R404) -/
/-- R404, its reasons in order; `w` is the new TRC_CTL. -/
def trcCheck (s : State) (p : Nat) (w : Word) : Nat :=
  let q := getPart s p
  let n := fld (partReg q 0x2010) 17 0
  if partState s p == SEALED && !(bit (partReg q 0x10) 3) then 0x0A
  else if !(bit w 1) && hwrOwner q == 1 then 0x03
  else if bit w 1 && n == 0 then 0x06
  else if bit w 1 && !(validRun s p 2 (fld (partReg q 0x200C) 17 0) n) then 0x02
  else 0
/-- A masked write of TRC_CTL. ENABLE starts the ring of records again; clearing it ends the trace, and releases the host write ring.
(log 66: DEDUCED.) -/
def trcCtlWrite (s : State) (p : Nat) (v : Word) : State :=
  let q := getPart s p
  let old := partReg q 0x2000
  let new := mwApply 0x7FF old v
  let st := partReg q 0x2004
  if bit old 0 && !(bit new 0) then
    let s1 := traceEnd s p
    modPart s1 p (fun q => (q.setReg 0x2000 new).setReg 0x2004 (setBit st 0 false))
  else if !(bit old 0) && bit new 0 then
    let c := trcCheck s p new
    if c = 0 then
      let q1 := (q.setReg 0x2000 new).setReg 0x2004 (setFld (setBit (setBit st 0 true) 1 false) 15 8 0)
      let q2 := { q1 with trcAt := 0, trcSeq := 0, trcPhase := true }
      setPart s p (if bit new 1 then q2 else hwrClaim q2 2)
    else
      let q1 := (q.setReg 0x2000 (setBit new 0 false)).setReg 0x2004 (setFld st 15 8 c)
      setPart s p (if c = 0x03 then q1.setReg 0x90 (setFld (partReg q1 0x90) 31 24 c) else q1)
  else setPart s p (q.setReg 0x2000 new)
/-- TRC_CTL_ENABLE (R404). -/
def execTrcCtlEnable (fn : Fn) (p : PartIx) (v : Word) (s : State) : Out := .next (partGuard s fn p.val 0x2000 (trcCtlWrite s p.val v))

/-! ### The hub's registers (R369, R393, R315, R397, R398) -/
def hubWrite (s : State) (off : Nat) (v : Word) : State :=
  let w := hubReg s.hub off
  let put := fun (x : Word) => modHub s (fun h => h.setReg off x)
  if off = 0x8 then hubNodeWrite s v
  else if off = 0x10 then put (w &&& ~~~(v &&& 0xFF#32))
  else if off = 0x14 then hubIrqEnWrite s v
  else if off = 0x18 ∨ off = 0x1C then put v
  else if off = 0x20 then put (w &&& ~~~(v &&& 0x80000000#32))
  else if off = 0x1000 then pmCtlWrite s v
  else if off = 0x1004 then put (w &&& ~~~(v &&& 0x38#32))
  else if off = 0x1008 then pmCapWrite s v
  else if off = 0x1020 then (if 70 ≤ fld v 7 0 ∧ fld v 7 0 ≤ 105 then put (v &&& 0xFF#32) else s)
  else if off = 0x100000 then cmdWrite s .pf v
  else if 0x100010 ≤ off ∧ off < 0x100030 then put v
  else if off = 0x300000 then snapWrite s v
  else s

/-- The cycles of the host-class complex, which stands in STANDBY (R376), of a memory controller's island, of a link port's (R396). -/
def hubCycles (s : State) : BitVec 64 × State :=
  if pmActive s then
    let v := s.hub.cyc + Config.elapsed s.free
    (v, { modHub s (fun h => { h with cyc := v }) with free := s.free + 1 })
  else (s.hub.cyc, s)
def mcCycles (s : State) (m : Nat) : BitVec 64 × State :=
  let k := getMc s m
  let v := k.cyc + Config.elapsed s.free
  (v, { setMc s m { k with cyc := v } with free := s.free + 1 })
def lnkCycles (s : State) (l : Nat) : BitVec 64 × State :=
  let k := getLnk s l
  let v := k.cyc + Config.elapsed s.free
  (v, { setLnk s l { k with cyc := v } with free := s.free + 1 })
/-- One half of a cycle count. -/
def cycHalf (hi : Bool) (c : BitVec 64 × State) : Word × State := (if hi then w32 (fld c.1 63 32) else c.1.setWidth 32, c.2)

/-- Payload that has left through the endpoint, in 64-byte units (R397): the bytes of posted writes, MSI-X messages and completions (log 138: DESIGN
CHOICE). -/
def pcieTx (s : State) : Word := w32 ((payloadOut s.outbox - s.hub.txBase) / 64)
/-- CTR_HCC_RETn. -/
def retCounter (off : Nat) : Bool := decide (0x301040 ≤ off) && decide (off < 0x301080)
/-- Counters of events that no command shows one by one (payload of register writes, instructions of host-class cores between their accesses,
link-level retries): by when they are looked at they have advanced by a free value (log 138). -/
def freeCounter (off : Nat) : Bool := off == 0x301004 || retCounter off || (decide (0x1000000 ≤ off) && off % 0x100 == 0x10)
/-- Such a counter advances; a host-class core's stands in STANDBY (R376). -/
def grow (s : State) (off : Nat) : State :=
  if retCounter off && !(pmActive s) then s
  else let f := takeFree 32 s; modHub f.2 (fun h => h.setReg off (hubReg h off + f.1))
/-- A read of a hub register, with its effect (R4); in STANDBY and EXITING no oscillator that PM_CLK shows is locked (R376, R382). -/
def hubRead (s : State) (off : Nat) : Word × State :=
  let w := hubReg s.hub off
  let put := fun (x : Word) => modHub s (fun h => h.setReg off x)
  if off = 0x28 ∨ off = 0x34 ∨ off = 0x2004 then (w, put 0)
  else if off = 0x101C then (w, put (setFld w 15 8 0))
  else if off = 0x1024 then (if fld (hubReg s.hub 0x1004) 1 0 ≥ 2 then 0 else w, s)
  else if off = 0x100000 ∨ off = 0x300000 then (0, s)
  else if off = 0x301F10 then cycHalf false (hubCycles s)
  else if off = 0x301F14 then cycHalf true (hubCycles s)
  else if off = 0x301000 then (pcieTx s, s)
  else if freeCounter off then (hubReg (grow s off).hub off, grow s off)
  else (w, s)

/-! ### A partition's block (R371, R372) -/
/-- A word of a station entry. While the entry is enabled only STN_CTL takes writes. -/
def stnWordWrite (s : State) (p e o : Nat) (v : Word) : State :=
  let q := getPart s p
  let off := 0x8000 + e * 0x100 + o
  let put := fun (m : Word) => if bit (partReg q (0x8000 + e * 0x100)) 0 then s else setPart s p (q.setReg off (v &&& m))
  if o = 0 then stnCtlWrite s p e v
  else if o = 8 then put 0xFFFF#32
  else if 0x10 ≤ o ∧ o < 0x40 then put 0xFFFFFFFF#32
  else if 0x40 ≤ o ∧ o < 0x60 then put 0x3FFFFFF#32
  else if 0x60 ≤ o ∧ o < 0xA0 then put 0x3FFFF#32
  else s

/-- A write that has passed; `pid` is the writer's. -/
def partWrite (s : State) (p pid off : Nat) (v : Word) : State :=
  let q := getPart s p
  let put := fun (x : Word) => setPart s p (q.setReg off x)
  let w1c := fun (m : Word) => put (partReg q off &&& ~~~(v &&& m))
  if 0x8000 ≤ off then sealDrop s p pid (stnWordWrite s p ((off - 0x8000) / 0x100) (off % 0x100) v)
  else if off = 0x2C then put (v &&& 0x81FFFFFF#32)
  else if off = 0x40 then w1c 0xFFF#32
  else if off = 0x44 then partIrqEnWrite s p v
  else if off = 0x48 ∨ off = 0x4C ∨ off = 0x50 ∨ off = 0x84 ∨ off = 0x100 ∨ off = 0x104 ∨ off = 0x108 then put v
  else if off = 0x80 then put (v &&& 0xFFFFF000#32)
  else if off = 0x88 then hwrCtlWrite s p v
  else if off = 0x8C then put (v &&& 0xFFFF#32)
  else if off = 0x1E4 then (if fld v 15 0 = 0 then s else put (v &&& 0xFFFF#32))
  else if off = 0x10C then lscaleWrite s p v
  else if off = 0x110 then stepCtlWrite s p v
  else if 0x120 ≤ off ∧ off < 0x140 then sealDrop s p pid (put v)
  else if off = 0x140 then nanCtlWrite s p v
  else if off = 0x144 then nanRecWrite s p v
  else if off = 0x160 then htkCtlWrite s p v
  else if off = 0x180 then printCtlWrite s p v
  else if off = 0x184 then w1c 0x40000#32
  else if off = 0x188 ∨ off = 0x1C4 then put (v &&& 0xFFFFF#32)
  else if off = 0x1A0 then w1c 3#32
  else if off = 0x1C0 then srecCtlWrite s p v
  else if off = 0x1C8 then put (v &&& 0x1FFFFFFF#32)
  else if off = 0x1E0 then secureCtlWrite s p v
  else if off = 0x200 then proofCtlWrite s p v
  else if off = 0x204 ∨ off = 0x208 ∨ off = 0x200C ∨ off = 0x2010 then put (v &&& 0x3FFFF#32)
  else if off = 0x20C then w1c 2#32
  else if off = 0x1000 then cmdWrite s (.part (partIx p)) v
  else if 0x1010 ≤ off ∧ off < 0x1030 then put v
  else if off = 0x2000 then trcCtlWrite s p v
  else if off = 0x2008 then put (v &&& 0xFFFFFF#32)
  else if 0x2020 ≤ off ∧ off < 0x2034 then put v
  else s

/-- PART_TRAPCLw: clusters with a core of the partition whose TRAPPED flag is set. -/
def trapClusters (s : State) (p w : Nat) : Word :=
  w32 (((List.range 32).filter (fun b => (List.range 32).any (fun n =>
    let c := (32 * w + b) * 32 + n
    bit (coreReg (getCore s c) 0x4) 0 && coreOwner s c == some p))).map (fun b => 2 ^ b)).sum

/-- A read that has passed; a sealed read binds the offset in BAR0 (R331). -/
def partRead (s : State) (fn : Fn) (p off : Nat) : Word × State :=
  let q := getPart s p
  let w := partReg q off
  if off = 0x28 ∨ off = 0x94 ∨ off = 0x11C ∨ off = 0x150 ∨ off = 0x1A4 ∨ off = 0x2040 then (w, setPart s p (q.setReg off 0))
  else if 0x60 ≤ off ∧ off < 0x74 then (trapClusters s p ((off - 0x60) / 4), s)
  else if off = 0x168 then (w32 (htkCount s p 0), s)
  else if off = 0x16C then (w32 (htkCount s p 1), s)
  else if off = 0x1000 then (0, s)
  else if 0x120 ≤ off ∧ off < 0x140 ∧ fn = .pf ∧ partState s p = SEALED then sealedWord s p 0 (0x210000 + p * 0x10000 + off) w
  else (w, s)

/-! ### A link port's block (R266, R274, R294) -/
/-- The firewall in front of a port's registers. -/
def lnkCheckAt (s : State) (l off pid : Nat) (wr : Option Word) : Option Nat :=
  let stays := fun (old : Word) => match wr with | some v => mwStaysOn old v | none => false
  let k := getLnk s l
  if 0x2000 ≤ off ∧ off < 0x2400 then
    let o := portObj l ((off - 0x2000) / 0x10)
    (if off % 0x10 = 0 then objRefusal s pid o
     else ownCheck s pid (objOwner s o) (cfgOn (objCfg s o)) (off % 0x10 == 4 && pid == 0xF && stays (objCfg s o)))
  else if 0x2800 ≤ off ∧ off < 0x2880 then rgRefusal s l ((off - 0x2800) / 0x20) (off % 0x20 == 0 && stays (lnkReg k off)) pid
  else if 0x2900 ≤ off ∧ off < 0x2A00 then rgRefusal s l ((off - 0x2900) / 0x40) false pid
  else if off < 0x1C then lnkRefusal s l (off == 0 && stays (lnkReg k 0)) pid
  else sharedRefusal s pid

def lnkWrite (s : State) (fn : Fn) (l pid off : Nat) (v : Word) : State :=
  let k := getLnk s l
  let put := fun (m : Word) => setLnk s l (k.setReg off (v &&& m))
  if off = 0 then lnkCtlWrite s l pid v
  else if off = 4 then (if lnkOn k then s else put 0x1FFFFF#32)
  else if off = 0x10 ∨ off = 0x14 then put 0x3FFFF#32
  else if off = 0x18 then setLnk s l (k.setReg off (lnkReg k off &&& ~~~(v &&& 0x80000000#32)))
  else if 0x2000 ≤ off ∧ off < 0x2400 then
    let o := portObj l ((off - 0x2000) / 0x10)
    (if off % 0x10 = 0 then objValWrite s o fn pid v else if off % 0x10 = 4 then objCfgBy s fn o pid v else if off % 0x10 = 8 then put 0xFFFF#32 else s)
  else if 0x2800 ≤ off ∧ off < 0x2880 then
    let g := (off - 0x2800) / 0x20
    (if off % 0x20 = 0 then rgCtlWrite s l g pid v
     else if off % 0x20 = 4 then put 0xFFFFFF#32
     else if off % 0x20 = 8 then (if rgOn k g then s else put 0xFFFF#32)
     else if off % 0x20 = 0xC then put 0x1FFFF#32 else s)
  else if 0x2900 ≤ off ∧ off < 0x2A00 then put (if off % 8 = 0 then 0xFFF#32 else 0x1FFFFF#32)
  else s

/-- A read of a port's block, after the reader's own operations there (R139); a proxy's value reads 0 (R263). -/
def lnkRead (s0 : State) (fn : Fn) (l off : Nat) : Word × State :=
  let s := ownSyncsFirst s0 (objUnit (portObj l 0)) fn
  let k := getLnk s l
  let w := lnkReg k off
  if 0x2000 ≤ off ∧ off < 0x2400 ∧ off % 0x10 = 0 then
    let o := portObj l ((off - 0x2000) / 0x10)
    (if isProxy s o then 0 else objVal s o, s)
  else if off = 0x200 then (w, setLnk s l (k.setReg off 0))
  else if off = 0x2400 then (setFld w 8 0 k.sync.waiters.length, s)
  else if off = 0xF10 then cycHalf false (lnkCycles s l)
  else if off = 0xF14 then cycHalf true (lnkCycles s l)
  else (w, s)

/-! ### A memory controller's block (R195, R251) -/
def mcCheckAt (s : State) (m off pid : Nat) (wr : Option Word) : Option Nat :=
  if 0x1080 ≤ off ∧ off < 0x10A0 then ownCheck s pid ((off - 0x1080) / 4) true false
  else if 0x1000 ≤ off ∧ off < 0x2000 then
    updRefusal s m (off == 0x1000 && (match wr with | some v => mwStaysOn (mcReg (getMc s m) 0x1000) v | none => false)) pid
  else sharedRefusal s pid

/-- A register of the update station that takes no writes while the station is enabled. -/
def updFieldWrite (s : State) (m pid off : Nat) (v mask : Word) : State :=
  let k := getMc s m
  sealDropOf s (stationOwner s m) pid (if stnOn k then s else setMc s m (k.setReg off (v &&& mask)))
def mcWrite (s : State) (m pid off : Nat) (v : Word) : State :=
  let k := getMc s m
  if off = 0x1000 then sealDropOf s (stationOwner s m) pid (updCtlWrite s m pid v)
  else if 0x1010 ≤ off ∧ off < 0x1050 then
    (if off % 0x10 = 0 then updFieldWrite s m pid off v 0x3FFFF#32
     else if off % 0x10 = 4 then updFieldWrite s m pid off v 0xFFFFFF#32
     else if off % 0x10 = 8 then updFieldWrite s m pid off v 0xFFFFF#32 else sealDropOf s (stationOwner s m) pid s)
  else if off = 0x1058 then sealDropOf s (stationOwner s m) pid (setMc s m (k.setReg off (mcReg k off &&& ~~~(v &&& 0x80000000#32))))
  else if 0x1080 ≤ off ∧ off < 0x10A0 then updLastWrite s m ((off - 0x1080) / 4) pid v
  else if 0x1800 ≤ off ∧ off < 0x2000 then updFieldWrite s m pid off v 0xFFFFFFFF#32
  else if 0x1000 ≤ off ∧ off < 0x2000 then sealDropOf s (stationOwner s m) pid s
  else s

/-- UPD_STAT with the fields that follow the state of the station. -/
def updStat (s : State) (m : Nat) (k : Mc) : Word :=
  let p := stnPid k
  let holds := match openFor k p with
    | some o => k.stn.tiles.any (fun t => t.got == 255#8 && t.step == o && (recordOf k t.addr).any (fun x => printHolds s p m x.1 x.2 t.addr))
    | none => false
  setFld (setBit (setBit (mcReg k 0x1004) 2 (stnOn k && k.stn.openStep.isSome && stnComplete k p)) 3 holds) 25 16 (stnBlocks k)
def mcRead (s : State) (fn : Fn) (m off : Nat) : Word × State :=
  let k := getMc s m
  let w := mcReg k off
  if off = 0x204 ∨ off = 0x210 ∨ off = 0x1060 then (w, setMc s m (k.setReg off 0))
  else if off = 0x1004 then (updStat s m k, s)
  else if off = 0x1054 then (w32 (match k.stn.openStep with | some o => (k.stn.tiles.filter (fun t => t.step == o + 1)).length | none => 0), s)
  else if off = 0xF10 then cycHalf false (mcCycles s m)
  else if off = 0xF14 then cycHalf true (mcCycles s m)
  else if 0x1800 ≤ off ∧ off < 0x2000 ∧ fn = .pf then
    match (stationOwner s m).filter (fun p => partState s p == SEALED) with
    | some p => sealedWord s p 0 (0x800000 + m * 0x10000 + off) w
    | none => (w, s)
  else (w, s)

/-! ### The aperture (R299) -/
/-- What the aperture opens on: the space, the cluster of SPACE 1, the address. -/
structure AperTo where
  space : Nat
  cl : Nat
  addr : Nat
  deriving DecidableEq, Repr
def aperTo (s : State) (p o : Nat) : Option AperTo :=
  let w := partReg (getPart s p) 0x2C
  let win := fld w 22 18
  if !(bit w 31) then none
  else if fld w 24 23 = 1 then some { space := 1, cl := fld w 17 0, addr := win * 0x40000 + o }
  else if fld w 24 23 = 2 ∧ win < 8 then some { space := 2, cl := 0, addr := fld w 17 0 * 2 ^ 21 + win * 0x40000 + o }
  else none
def aperNode (s : State) (p : Nat) (a : AperTo) : Node :=
  if a.space = 1 then .cluster a.cl else match pageOf s p 2 a.addr with | some e => .mc (ptPkg e) | none => .hub 0
/-- The firewall's refusal of an aperture access. -/
def aperRefusal (s : State) (p : Nat) (a : AperTo) (wr : Bool) : Option Nat :=
  if a.space = 1 then (if a.cl ≥ 160 then firstCode (pidDown s p) true false false else stagingRefusal s { pid := p, cl := a.cl, stn := false } a.addr)
  else pageRefusal s p 2 a.addr wr
def aperRefuse (s : State) (p : Nat) (a : AperTo) (typ code : Nat) : State :=
  hostRef (fwRefuse s (aperNode s p a) p typ code (nodeCode (.hub 0)) a.addr) (.vf (partIx p))
def aperWrite (s : State) (p o : Nat) (v : Word) : State :=
  if ideHeld (getPart s p) then hostRef s (.vf (partIx p))
  else match aperTo s p o with
  | none => if pidDown s p then hostRef s (.vf (partIx p)) else s
  | some a =>
    if stopped s (aperNode s p a) then stopCount s (.vf (partIx p))
    else match aperRefusal s p a true with
    | some c => aperRefuse s p a 1 c
    | none => tierPut s { pid := p, cl := a.cl, stn := false } a.space [(a.addr, leBytes 4 v.toNat)]
/-- A read through the aperture; poisoned bytes are a free value (log 1). (log 64: DEDUCED.) -/
def aperRead (s : State) (p o : Nat) : Word × State :=
  if ideHeld (getPart s p) then (ONES, hostRef s (.vf (partIx p)))
  else match aperTo s p o with
  | none => if pidDown s p then (ONES, hostRef s (.vf (partIx p))) else (0, s)
  | some a =>
    if stopped s (aperNode s p a) then (ONES, stopCount s (.vf (partIx p)))
    else match aperRefusal s p a false with
    | some c => (ONES, aperRefuse s p a 0 c)
    | none => match tierRead s { pid := p, cl := a.cl, stn := false } a.space a.addr 4 with
      | .ok b => (w32 (leNat b), s)
      | .error _ => takeFree 32 s

/-! ### MSI-X (R297, R305) -/
/-- Vectors of a function (R304). -/
def msixCount : Fn → Nat | .vf _ => 248 | _ => 64
/-- No access to a partition in the pass or torn down (R298), or held by its seal policy (R326). -/
def msixHeld (s : State) : Fn → Bool
  | .vf p => pidDown s p.val || ideHeld (getPart s p.val)
  | _ => false
/-- An access that reaches nothing: it counts where the partition takes none (R298). -/
def voidWrite (s : State) (fn : Fn) : State := if msixHeld s fn then hostRef s fn else s
def voidRead (s : State) (fn : Fn) : Word × State := if msixHeld s fn then (ONES, hostRef s fn) else (0, s)
/-- R305: a write of the MSI-X table (log 63: DEDUCED). -/
def msixWrite (s : State) (fn : Fn) (o : Nat) (v : Word) : State :=
  if msixHeld s fn then hostRef s fn
  else if o < 16 * msixCount fn then
    flushFn (modFn s fn (fun f => { f with msix := tset f.msix o (if o % 16 = 12 then v &&& 1#32 else v) })) fn
  else s
def msixRead (s : State) (fn : Fn) (o : Nat) : Word × State :=
  let f := getFn s fn
  if msixHeld s fn then (ONES, hostRef s fn)
  else if o < 16 * msixCount fn then (msixWord f o, s)
  else if 0x8000 ≤ o then (w32 (((List.range 32).filter (fun b => f.pend.contains ((o - 0x8000) * 8 + b))).map (fun b => 2 ^ b)).sum, s)
  else (0, s)

end Sys2Proof.Machine
end

