-- ==== Sys2Proof/Machine/Mesh.lean ====
section
/-! DEFINITION. The packets of the mesh (R137): the header flit. -/
namespace Sys2Proof.Machine

/-! ### The header flit (R137) -/
/-- TYPE. -/
def Body.typ : Body → Nat
  | .pageRead .. => 0x0 | .grad _ => 0x1 | .data _ => 0x2 | .ack => 0x3 | .sync _ | .cancel .. => 0x4 | .syncRsp _ _ _ (.val _) => 0x5 | .syncRsp _ _ _ (.refused _) => 0x8
  | .regRead _ => 0x6 | .regWrite .. => 0x7 | .refusal _ => 0x8 | .interrupt _ => 0x9 | .link _ => 0xA
/-- LEN: payload flits. A gradient packet has eight (R227); a register's value takes one. (log 113: DESIGN CHOICE.) -/
def Body.len : Body → Nat
  | .grad _ => 8 | .data _ | .regWrite .. => 1
  | .link b => ((b.length + 31) / 32 - 1) % 9
  | _ => 0
/-- DKIND and SKIND. -/
def nodeKind : Node → Nat
  | .core _ | .cluster _ => 0 | .mc _ => 1 | .lp _ => 2 | .hub _ => 3
/-- The name of an object (R82). -/
def objWord : ObjRef → Nat
  | .hive cl n => cl.val * 2 ^ 8 + n.val
  | .port lp n => 2 ^ 31 + lp.val * 2 ^ 8 + n.val
/-- ADDR. -/
def Body.addr : Body → Nat
  | .regRead a | .regWrite a _ => a.toNat
  | .sync q => objWord q.obj
  | .cancel o _ _ => objWord o
  | .pageRead _ _ page => page * 2 ^ 21
  | .grad g => g.addr % 2 ^ 48 + g.q % 8 * 2 ^ 48
  | _ => 0
/-- ARG. -/
def Body.arg : Body → Nat
  | .sync q => q.arg.toNat
  | .refusal c => c
  | .syncRsp _ _ _ a => (match a with | .val v => v.toNat | .refused c => c)
  | .grad g => g.step.toNat
  | _ => 0
/-- R137: the header flit of a packet. -/
def headerFlit (p : Packet) : BitVec 256 :=
  BitVec.ofNat 256 (p.pid % 16 + p.body.typ * 2 ^ 4 + p.body.len * 2 ^ 8 + nodeKind p.dst * 2 ^ 12 + nodeKind p.src * 2 ^ 14 +
    nodeCode p.dst % 2 ^ 16 * 2 ^ 16 + nodeCode p.src % 2 ^ 16 * 2 ^ 32 + p.tid % 2 ^ 16 * 2 ^ 48 + p.body.addr % 2 ^ 64 * 2 ^ 64 +
    p.body.arg % 2 ^ 32 * 2 ^ 128)
/-- The flits of a packet: its header and its payload. -/
def Packet.flits (p : Packet) : Nat := 1 + p.body.len

end Sys2Proof.Machine
end

