-- ==== Sys2Proof/Machine/Indirect.lean ====
section
/-! DEFINITION. Indirect ports (R358 to R362), the delivery of mesh packets (R139, R140, R194), and the commands that read and write registers
(R4, R5, R300, R331, R355). -/
namespace Sys2Proof.Machine

/-! ### Indirect ports -/
def indState (s : State) : IndPort → IndState
  | .pf => s.hub.ind
  | .part p => (getPart s p.val).ind
  | .door cl => (getCl s cl.val).door
def modInd (s : State) (i : IndPort) (f : IndState → IndState) : State :=
  match i with
  | .pf => modHub s (fun h => { h with ind := f h.ind })
  | .part p => modPart s p.val (fun k => { k with ind := f k.ind })
  | .door cl => let k := getCl s cl.val; setCl s cl.val { k with door := f k.door }
/-- IND_ADDR; a doorway's CLUSTER is its own. -/
def indAddrOf (s : State) (i : IndPort) : Word :=
  match i with
  | .door cl => setFld (indState s i).addr 31 24 cl.val
  | _ => (indState s i).addr
def indBusy (s : State) (i : IndPort) : Bool := (indState s i).flight.isSome
/-- IND_STAT. -/
def indStat (s : State) (i : IndPort) : Word := setBit (indState s i).stat 0 (indBusy s i)
/-- The PID of the function that owns the port. -/
def indPid : IndPort → Nat
  | .part p => p.val
  | _ => 0xF
/-- The transaction identifier of a port's packets, and the port of an identifier. -/
def indTid : IndPort → Nat
  | .pf => 0
  | .part p => 1 + p.val
  | .door cl => 16 + cl.val
def tidPort (t : Nat) : IndPort := if t = 0 then .pf else if t < 16 then .part (partIx (t - 1)) else .door (clIx (t - 16))

/-- A port is reached: a partition's by that partition and the physical function, the others by the physical function alone. -/
def indNode : IndPort → Node
  | .pf => .hub 0
  | .part _ => .hub 2
  | .door cl => .cluster cl.val
def indCheck (s : State) (i : IndPort) (pid : Nat) : Option Nat :=
  match i with
  | .part p => ownCheck s pid p.val true false
  | _ => if pid = 0xF then none else some OWNER_MISMATCH
def indGuard (s : State) (fn : Fn) (i : IndPort) (off : Nat) (eff : State) : State := guarded s fn (indNode i) off (indCheck s i) (fun _ => eff)

/-- A write of IND_ADDR, accepted even while BUSY. -/
def indAddrWrite (s : State) (i : IndPort) (v : Word) : State := modInd s i (fun x => { x with addr := v &&& 0xFFFFFFFC#32 })
/-- IND_STAT: OVERRUN and REFUSED are cleared by writing 1. -/
def indStatWrite (s : State) (i : IndPort) (v : Word) : State := modInd s i (fun x => { x with stat := x.stat &&& ~~~(v &&& 6#32) })
/-- IND_ADDR after an access: OFFSET takes the next word, modulo 2^16. -/
def indNext (a : Word) : Word := setFld a 17 2 (fld a 17 2 + 1)
/-- REFUSED and CODE. -/
def indRefused (s : State) (i : IndPort) (fn : Fn) (code : Nat) : State :=
  hostRef (modInd s i (fun x => { x with stat := setFld (setBit x.stat 2 true) 15 8 code })) fn

/-- What an accepted access of a port starts: it is answered at once, or it is in flight. -/
inductive IndStart
  | done (w : Word) (s : State)
  | flight (s : State)

/-- An access leaves the port: no cluster above 159 (R358), no stopped island (R378). -/
def indStart (s : State) (fn : Fn) (i : IndPort) (body : Word → Body) (read : Bool) (be : BitVec 4) : IndStart :=
  let a := indAddrOf s i
  let cl := fld a 31 24
  let s1 := modInd s i (fun x => { x with addr := indNext a })
  if cl ≥ 160 then .done ONES (indRefused s1 i fn NOT_MAPPED)
  else if !(pmActive s) then .done ONES (stopCount s1 fn)
  else
    let q : Packet := { pid := indPid i, src := .hub 0, dst := locNode cl (indLoc a), tid := indTid i, body := body a }
    .flight { modInd s1 i (fun x => { x with flight := some { fn := fn, read := read, be := be, tid := indTid i, ans := none } }) with mesh := s.mesh ++ [q] }

/-- A write of IND_DATA (R360). -/
def indDataWrite (s : State) (fn : Fn) (i : IndPort) (v : Word) : State :=
  if indBusy s i then modInd s i (fun x => { x with stat := setBit x.stat 1 true })
  else match indStart s fn i (fun a => .regWrite a v) false 0xF with
    | .done _ s1 => s1
    | .flight s1 => s1

/-- IND_ADDR (R360). -/
def execIndAddr (fn : Fn) (i : IndPort) (v : Word) (s : State) : Out := .next (indGuard s fn i 0 (indAddrWrite s i v))
/-- IND_DATA_WRITE (R360). -/
def execIndDataWrite (fn : Fn) (i : IndPort) (v : Word) (s : State) : Out := .next (indGuard s fn i 4 (indDataWrite s fn i v))

/-- A read that completes now. -/
def readDone (fn : Fn) (z : Word × State) : State := send z.2 [.readData fn z.1]
/-- R355: the bytes of a dword that a read selects; the others are 0 here. -/
def selectBytes (w : Word) (be : BitVec 4) : Word :=
  w &&& w32 (((List.range 4).filter (fun i => bit be i)).map (fun i => 0xFF * 2 ^ (8 * i))).sum
/-- A read of IND_DATA that the port takes: its answer comes later, unless the port refuses it itself. -/
def indReadGo (s : State) (fn : Fn) (i : IndPort) (be : BitVec 4) : State :=
  match readStop s fn (indNode i) 4 (indCheck s i) with
  | some t => readDone fn (selectBytes ONES be, t)
  | none => match indStart s fn i (fun a => .regRead a) true be with
    | .done w s1 => readDone fn (selectBytes w be, s1)
    | .flight s1 => s1
/-- A read of IND_DATA: while BUSY it is held (R360). -/
def indDataRead (s : State) (fn : Fn) (i : IndPort) (be : BitVec 4) : State :=
  if indBusy s i then modInd s i (fun x => { x with held := x.held ++ [(fn, be)] }) else indReadGo s fn i be
/-- The reads that were held, in order, until the port is BUSY again; those of a function that is gone by then have no requester. -/
def indRunHeld (i : IndPort) : List (Fn × BitVec 4) → State → State
  | [], s => s
  | h :: t, s =>
    if indBusy s i then modInd s i (fun x => { x with held := h :: t })
    else indRunHeld i t (if fnLive s h.1 then indReadGo s h.1 i h.2 else s)
/-- IND_DATA_READ (R360): the whole dword. -/
def execIndDataRead (fn : Fn) (i : IndPort) (s : State) : Out := .next (if fnLive s fn then indDataRead s fn i 0xF else s)

/-- INDIRECT_RESPONSE (R360): BUSY goes; a read returns its value, or all ones where it was refused, the selected bytes of it (R355); then the
reads held meanwhile run. -/
def execIndirectResponse (i : IndPort) (s : State) : Out :=
  match (indState s i).flight with
  | none => .next s
  | some f =>
    match f.ans with
    | none => .next s
    | some a =>
      let s1 := modInd s i (fun x => { x with flight := none, held := [] })
      let s2 := match a with | .refused c => indRefused s1 i f.fn c | .val _ => s1
      let s3 := if f.read then readDone f.fn (selectBytes (match a with | .val w => w | .refused _ => ONES) f.be, s2) else s2
      .next (indRunHeld i (indState s i).held s3)

/-! ### Packets arrive (R139, R140) -/
/-- The answer of a port's access is in. -/
def indAnswer (s : State) (t : Nat) (a : Answer) : State :=
  let i := tidPort t
  modInd s i (fun x => { x with flight := x.flight.map (fun f => { f with ans := some a }) })
/-- The function behind a port's access. -/
def flightFn (s : State) (t : Nat) : Fn := match (indState s (tidPort t)).flight with | some f => f.fn | none => .pf

/-- A packet back to where one came from. -/
def reply (s : State) (q : Packet) (b : Body) : State :=
  { s with mesh := s.mesh ++ [{ pid := q.pid, src := q.dst, dst := q.src, tid := q.tid, body := b }] }

/-- A register write arrives at a cluster or core. -/
def takeRegWrite (s : State) (q : Packet) (a v : Word) : State :=
  let cl := fld a 31 24
  let fn := flightFn s q.tid
  match (sealedOwner s fn (indLoc a)).filter (fun _ => (locRefusal s cl q.pid none (indLoc a)).isNone), locRefusal s cl q.pid (some v) (indLoc a) with
  | some p, _ => reply (sealDrop s p 0xF s) q .ack
  | none, some c => reply (fwRefuse (sealCountAt s fn cl (indLoc a)) q.dst q.pid 7 c (nodeCode q.src) a.toNat) q (.refusal c)
  | none, none => reply (locWrite s fn cl q.pid v (indLoc a)) q .ack
/-- A register read arrives. -/
def takeRegRead (s : State) (q : Packet) (a : Word) : State :=
  match locRefusal s (fld a 31 24) q.pid none (indLoc a) with
  | some c => reply (fwRefuse s q.dst q.pid 6 c (nodeCode q.src) a.toNat) q (.refusal c)
  | none => let r := indRead s (flightFn s q.tid) a; reply r.2 q (.data r.1)

/-- The units of a page that a job reads, in address order. -/
def pageUnits (j : Job) (page : Nat) : List Nat :=
  (((j.reads.flatMap (fun r => unitsOf r.1 r.2)).filter (fun u => u.1 / 2 ^ 21 == page)).map (fun u => u.1 % 2 ^ 21 / 256)).eraseDups.mergeSort (fun a b => decide (a ≤ b))

/-- A page read arrives at its controller (R140, R191, R194): it is refused, or its bytes come back with what the burst code found. It stands for
one request and one answer of 256 bytes for each unit. (log 113: DESIGN CHOICE.) -/
def takePageRead (s : State) (q : Packet) (cl ch page : Nat) (ecc : Ecc) : State :=
  let k := getCl s cl
  let h := getChan k ch
  match h.job with
  | none => s
  | some j =>
    if !(j.pages.contains page) || j.pid != q.pid then s
    else match pageRefusal s q.pid 2 (page * 2 ^ 21) false, pageOf s q.pid 2 (page * 2 ^ 21) with
      | some c, _ => failJob s cl ch j (failAt E_REFUSED c 2 (page * 2 ^ 21))
      | none, none => s
      | none, some _ =>
        let s1 := eccRead s q.pid ((pageUnits j page).map (fun u => (page * 2 ^ 21 + u * 256, 256))) ecc
        let k1 := getCl s1 cl
        let n := (pageUnits j page).length
        askBody (ddMesh (ddMesh (setCl s1 cl (setChan k1 ch { h with job := some { j with pages := j.pages.erase page } })) q.src q.dst (n - 1)) q.dst q.src (9 * n)) cl ch

/-- Gradient packets come from link ports only (R227). -/
def takeGrad (s : State) (q : Packet) (g : GradPkt) : State :=
  match q.dst, q.src with
  | .mc m, .lp _ => let k := getMc s m; setMc s m { k with stn := { k.stn with arrived := k.stn.arrived ++ [g] } }
  | .mc _, _ => fwRefuse s q.dst q.pid 1 TYPE_NOT_PERMITTED (nodeCode q.src) g.addr
  | _, _ => s

/-- Link payload (R279, R291). At a port it leaves in MESH flits under the session of its partition; what has come over a link is used by the port or
unit that it names, and never leaves on another link. (log 65: DEDUCED.) -/
def takeLink (s : State) (q : Packet) (bytes : List Byte) : State :=
  match q.dst, q.src with
  | .lp _, .lp _ => s
  | .lp l, _ =>
    match ownCheck s q.pid (lpid (getLnk s l)) (lnkOn (getLnk s l)) false with
    | some c => fwRefuse s q.dst q.pid 0xA c (nodeCode q.src) 0
    | none => pushItems s l (meshItems bytes)
  | _, _ => s

/-- What a packet does where it arrives. -/
def takePacket (s : State) (q : Packet) (ecc : Ecc) : State :=
  match q.body with
  | .regWrite a v => takeRegWrite s q a v
  | .regRead a => takeRegRead s q a
  | .ack => indAnswer s q.tid (.val 0)
  | .data v => indAnswer s q.tid (.val v)
  | .refusal c => indAnswer s q.tid (.refused c)
  | .sync r => let u := objUnit r.obj; let y := unitSync s u; setUnitSync s u { y with arrived := y.arrived ++ [r] }
  | .cancel o src t => let u := objUnit o; let y := unitSync s u; setUnitSync s u { y with cancels := y.cancels ++ [(src, t)] }
  | .pageRead cl ch page => takePageRead s q cl ch page ecc
  | .syncRsp src op t a => takeAnswer s src op t a
  | .grad g => takeGrad s q g
  | .link bytes => takeLink s q bytes
  | .interrupt vec => if q.pid < 8 then partMsg s q.pid vec else pfMsg s vec

/-- MESH_PACKET_DELIVERY (R139, R140): the first packet on the path of the n-th, counted at the interfaces it crosses (R398); none moves through a
stopped island (R378). -/
def execMeshPacketDelivery (n : Nat) (ecc : Ecc) (s : State) : Out :=
  match s.mesh[n]? with
  | none => .next s
  | some q0 =>
    match s.mesh.find? (fun q => q.src == q0.src && q.dst == q0.dst) with
    | none => .next s
    | some q =>
      if stopped s q.src || stopped s q.dst then .next s
      else .next (takePacket (ddMesh { s with mesh := s.mesh.erase q } q.src q.dst q.flits) q ecc)

/-! ### Reads and writes by address -/
/-- A 32-bit write of a virtual function's doorbell page, or beyond it (R297, R300). -/
def bellWrite (s : State) (p o : Nat) (v : Word) : State :=
  let fn : Fn := .vf (partIx p)
  if fnLive s fn = false then s
  else if o < 0xA00 then tailWrite s fn (o / 16) (o / 4 % 4) v
  else if o = 0xC00 then partGuard s fn p 0x8C (partWrite s p p 0x8C v)
  else voidWrite s fn
/-- A write of a whole dword. -/
def writeAt (s : State) (fn : Fn) (l : BarLoc) (v : Word) : State :=
  match l with
  | .hub off => hubGuard s fn off (hubWrite s off v)
  | .part p off => guarded s fn (.hub 2) (0x210000 + p * 0x10000 + off) (fun pid => ownCheck s pid p true false) (fun pid => partWrite s p pid off v)
  | .ind i off => indGuard s fn i off (if off = 0 then indAddrWrite s i v else if off = 4 then indDataWrite s fn i v else indStatWrite s i v)
  | .lnk n off => guarded s fn (.lp n) off (fun pid => lnkCheckAt s n off pid (some v)) (fun pid => lnkWrite s fn n pid off v)
  | .mc m off =>
    updSealed s fn m off (mcCheckAt s m off 0xF (some v)) (guarded s fn (.mc m) off (fun pid => mcCheckAt s m off pid (some v)) (fun pid => mcWrite s m pid off v))
  | .aper p o => if fnLive s fn then aperWrite s p o v else s
  | .msix o => if fnLive s fn then msixWrite s fn o v else s
  | .bell p o => bellWrite s p o v
  | .clId _ | .none_ => if fnLive s fn then voidWrite s fn else s

/-- R322: the physical function reads a partition's block in every state; in the pass its data-bearing words are refused with the rest (R333). -/
def partReadCheck (s : State) (pid p off : Nat) : Option Nat :=
  if pid = 0xF ∧ ¬(0x120 ≤ off ∧ off < 0x140) then none else ownCheck s pid p true false
/-- A read of a whole dword other than IND_DATA. -/
def readAt (s : State) (fn : Fn) (l : BarLoc) : Word × State :=
  match l with
  | .hub off => guardedRead s fn (.hub 0) off (fun pid => if pid = 0xF then none else some OWNER_MISMATCH) (hubRead s off)
  | .part p off => guardedRead s fn (.hub 2) (0x210000 + p * 0x10000 + off) (fun pid => partReadCheck s pid p off) (partRead s fn p off)
  | .ind i off => guardedRead s fn (indNode i) off (indCheck s i) (if off = 0 then indAddrOf s i else indStat s i, s)
  | .clId cl => guardedRead s fn (.cluster cl) 0x10 (sharedRefusal s) (w32 (placeCl cl + tget s.hub.rot.phys cl 0 * 2 ^ 16), s)
  | .lnk n off => guardedRead s fn (.lp n) off (fun pid => lnkCheckAt s n off pid none) (lnkRead s fn n off)
  | .mc m off => guardedRead s fn (.mc m) off (fun pid => mcCheckAt s m off pid none) (mcRead s fn m off)
  | .aper p o => aperRead s p o
  | .msix o => msixRead s fn o
  | .bell _ _ | .none_ => voidRead s fn

/-- REGISTER_WRITE (R4, R6, R7). -/
def execRegisterWrite (fn : Fn) (off : BitVec 26) (v : Word) (s : State) : Out := .next (writeAt s fn (fnLoc fn off.toNat) v)

/-- A read through the aperture that reaches LPDDR6 meets what the burst code finds (R194). -/
def aperEcc (s : State) (ecc : Ecc) : BarLoc → State
  | .aper p o => match aperTo s p o with
    | some a =>
      if a.space = 2 && !(ideHeld (getPart s p)) && !(stopped s (aperNode s p a)) && (aperRefusal s p a false).isNone then eccRead s p [(a.addr, 4)] ecc else s
    | none => s
  | _ => s
/-- READ_CLEAR (R4, R5, R355): the read of a register, with what reading does; a refused read is counted (R298). -/
def execReadClear (fn : Fn) (off : BitVec 26) (be : BitVec 4) (ecc : Ecc) (s : State) : Out :=
  if fnLive s fn = false then .next s
  else match fnLoc fn off.toNat with
    | .ind i 4 => .next (indDataRead s fn i be)
    | l => let z := readAt (aperEcc s ecc l) fn l; .next (readDone fn (selectBytes z.1 be, z.2))

/-- PARTIAL_BYTE_WRITE (R355): dropped and counted. -/
def execPartialByteWrite (fn : Fn) (_off : BitVec 26) (_v : Word) (be : BitVec 4) (s : State) : Out :=
  if be = 0xF#4 then .refused (.illFormed "PARTIAL_BYTE_WRITE")
  else if fnLive s fn = false then .next s
  else match fn with
    | .pf => .next (raisePf (hostErr s) 6)
    | _ => .next (hostRef s fn)

/-- DOORBELL (R300). -/
def execDoorbell (p : PartIx) (off : BitVec 12) (v : Word) (whole : Bool) (s : State) : Out :=
  if whole then .next (bellWrite s p.val (off.toNat / 4 * 4) v)
  else .next (if fnLive s (.vf p) then hostRef s (.vf p) else s)

/-- SEALED_READ (R330, R331): the physical function's read of a data-bearing word of a sealed partition; from a stopped island it reads ones (R378).
(log 62: DEDUCED.) -/
def execSealedRead (loc : SealedLoc) (s : State) : Out :=
  if fnLive s .pf = false then .next s
  else match loc with
  | .bar0 off =>
    match barLoc (off.toNat / 4 * 4) with
    | .part p o => if partState s p = SEALED ∧ 0x120 ≤ o ∧ o < 0x140 then .next (readDone .pf (partRead s .pf p o)) else .next s
    | .mc m o =>
      if (stationOwner s m).any (fun p => partState s p == SEALED) && decide (0x1800 ≤ o) && decide (o < 0x2000) then
        .next (readDone .pf (if pmActive s then mcRead s .pf m o else (ONES, stopCount s .pf)))
      else .next s
    | _ => .next s
  | .ind a =>
    if fld a 31 24 < 160 ∧ (sealedAt s .pf (indLoc a)).isSome = true then .next (readDone .pf (if pmActive s then indRead s .pf a else (ONES, stopCount s .pf))) else .next s

end Sys2Proof.Machine
end

