-- ==== Sys2Proof/Machine/Safelight.lean ====
section
/-! DEFINITION. Contact sheets (R368, R394 to R399) and trace (R401 to R403). -/
namespace Sys2Proof.Machine

/-! ### Markers (R368, R396 to R399) -/
/-- Registers copied to their holding registers, `d` above them. -/
def holdRegs (t : Regs) (offs : List Nat) (d : Nat) : Regs := offs.foldl (fun r o => tset r (o + d) (tget t o 0)) t
/-- The counters of a core's page (R126, R162, R395). -/
def coreCounters : List Nat := (List.range 8).map (fun i => 0x20 + 4 * i) ++ [0x88] ++ (List.range 4).map (fun i => 0x90 + 4 * i)
/-- Holding copy of a cycle count, and the sheet's number. -/
def holdCyc (t : Regs) (base : Nat) (c : BitVec 64) (seq : Nat) : Regs :=
  tset (tset (tset t (base + 0xF18) (c.setWidth 32)) (base + 0xF1C) (w32 (fld c 63 32))) (base + 0xF00) (w32 seq)
/-- The sheet that is being taken. -/
def sheetSeq (s : State) : Nat := fld (hubReg s.hub 0x300004) 15 0
/-- The marker reaches a cluster: its cores, its tier counters, its cycles; EVT 6 of the partitions that trace it. -/
def markCluster (s : State) (cl : Nat) : State :=
  let cy := clCycles s cl
  let s1 := (List.range 32).foldl (fun s n => let c := cl * 32 + n; let k := getCore s c; setCore s c { k with regs := holdRegs k.regs coreCounters 0x40 }) cy.2
  let k := getCl s1 cl
  let q := sheetSeq s
  let s2 := setCl s1 cl { k with regs := holdCyc (holdRegs k.regs ((List.range 24).map (fun i => 0x1900 + 4 * i)) 0x100) 0 cy.1 q }
  (List.range 8).foldl (fun s p =>
    if traceOn s p cl 6 then
      pushTrace s p cl { TraceRec.blank with part := p, evt := 6, place := placeCl cl, cyc := cy.1.setWidth 32, seq := q, args := [cy.1.setWidth 32, w32 (fld cy.1 63 32)] }
    else s) s2
def markMc (s : State) (m : Nat) : State :=
  let cy := mcCycles s m
  let k := getMc cy.2 m
  setMc cy.2 m { k with regs := holdCyc (holdRegs k.regs [0x1064, 0x1068, 0x106C] 0x100) 0 cy.1 (sheetSeq s) }
def markLnk (s : State) (l : Nat) : State :=
  let cy := lnkCycles s l
  let k := getLnk cy.2 l
  setLnk cy.2 l { k with regs := holdCyc (holdRegs k.regs [0x20, 0x24, 0x28, 0x2C, 0x30] 0x100) 0 cy.1 (sheetSeq s) }
def markHub (s : State) : State :=
  let cy := hubCycles s
  let rets := (List.range 16).map (fun n => 0x301040 + 4 * n)
  let s1 := (0x301004 :: rets).foldl grow (modHub cy.2 (fun h => h.setReg 0x301000 (pcieTx cy.2)))
  modHub s1 (fun h => { h with regs := holdCyc (holdRegs h.regs ([0x301000, 0x301004, 0x301008] ++ rets) 0x400) 0x301000 cy.1 (sheetSeq s) })
/-- The three interfaces of a die (R398). -/
def markDie (s : State) (d : Nat) : State :=
  (List.range 3).foldl (fun s i =>
    let b := ddOff d i
    modHub (grow s (b + 0x10)) (fun h => { h with regs := tset (holdRegs h.regs [b, b + 4, b + 8, b + 0xC, b + 0x10] 0x40) (b + 0x7C) (w32 (sheetSeq s)) })) s

/-- The island is stopped (R376, R378): that of a cluster, a controller or a link port while power management is not ACTIVE. -/
def islandStopped (s : State) : Island → Bool
  | .cluster _ | .mc _ | .lnk _ => !(pmActive s)
  | _ => false
/-- MARKER (R399): an island that the marker has not yet reached copies its counters, and acknowledges; one in standby captures nothing. -/
def execMarker (i : Island) (s : State) : Out :=
  if s.hub.markers.contains i && !(islandStopped s i) then
    let s1 := match i with
      | .cluster cl => markCluster s cl.val
      | .mc m => markMc s m.val
      | .lnk l => markLnk s l.val
      | .hub => markHub s
      | .dd d => markDie s d.val
    .next (modHub s1 (fun h => { h with markers := h.markers.erase i, acks := h.acks ++ [i] }))
  else .next s

/-- SNAP_ACK (R368): the last acknowledgement sets DONE and raises the SNAP cause. -/
def execSnapAck (i : Island) (s : State) : Out :=
  if s.hub.acks.contains i then
    let s1 := modHub s (fun h => { h with acks := h.acks.erase i })
    if s1.hub.markers.isEmpty && s1.hub.acks.isEmpty then
      .next (raisePf (modHub s1 (fun h => h.setReg 0x300004 (setBit (hubReg h 0x300004) 16 true))) 2)
    else .next s1
  else .next s

/-! ### Trace (R401 to R403) -/
/-- TRACE_SAMPLE (R401): EVT 7, with the eight stall counters of a traced core. -/
def execTraceSample (c : CoreIx) (s : State) : Out := running s <|
  let k := getCore s c.val
  match coreOwner s c.val with
  | none => .next s
  | some p =>
    .next (emitTrace s p (c.val / 32)
      { TraceRec.blank with evt := 7, ctx := k.active, place := placeCore c.val, args := (List.range 8).map (fun i => coreReg k (0x20 + 4 * i)) })

/-- Bytes 0x04 to 0x3F of a record (R402). -/
def traceBytes (t : TraceRec) : List Byte :=
  leBytes 1 t.evt ++ leBytes 1 (t.ctx % 4 + t.slot % 8 * 4) ++ leBytes 2 t.place ++ leBytes 4 t.cyc.toNat ++ leBytes 2 t.seq ++ leBytes 2 t.tag.toNat ++
    leBytes 2 t.pc ++ leBytes 2 t.info ++ (List.range 11).flatMap (fun i => leBytes 4 (t.args.getD i 0).toNat)

/-- R403: a record goes into the ring of pages in SPACE 2, the oldest overwritten; a record for a page that is no longer there is lost. -/
def traceToTier (s : State) (p : Nat) (t : TraceRec) : State :=
  let q := getPart s p
  let n := fld (partReg q 0x2010) 17 0 * 32768
  let a := fld (partReg q 0x200C) 17 0 * 2 ^ 21 + 64 * q.trcAt
  let at1 := if q.trcAt + 1 < n then q.trcAt + 1 else 0
  let w : Who := { pid := p, cl := 0, stn := false }
  let seq := q.trcSeq + 1
  let ws := [(a, [BitVec.ofNat 8 (b2n q.trcPhase + 2 * 16), 0] ++ leBytes 2 seq.toNat ++ (traceBytes t).take 60)]
  let s1 := setPart s p { q with trcAt := at1, trcSeq := seq, trcPhase := if at1 = 0 then !q.trcPhase else q.trcPhase }
  match writeFail s w 2 ws with
  | some _ => modPart s1 p (fun k => k.setReg 0x2040 (bump 0xFFFFFFFF (partReg k 0x2040) 1))
  | none => tierPut s1 w 2 ws

/-- R306, R403: a record of partition p leaves its source buffer; it waits while the host write ring is not enabled. -/
def traceOut (s : State) (p : Nat) (t : TraceRec) : State :=
  let q := getPart s p
  if bit (partReg q 0x2000) 1 then traceToTier s p t
  else if hwrRoom q = 0 then setPart s p (q.setReg 0x94 (bump 0xFFFFFFFF (partReg q 0x94) 1))
  else hwrPost s p 2 (traceBytes t)
/-- The record may leave now. -/
def traceMay (s : State) (t : TraceRec) : Bool := let q := getPart s t.part; bit (partReg q 0x2000) 1 || hwrOn q

/-- What the trace engine does when no command waits (log 18): the oldest record that may leave, of the lowest-numbered cluster that
holds one, leaves; a stopped cluster gives none (R376). -/
def traceDrain (s : State) : State :=
  match s.clusters.find? (fun c => pmActive s && c.2.trace.any (traceMay s)) with
  | none => s
  | some (cl, k) => match k.trace.find? (traceMay s) with
    | none => s
    | some t => traceOut (setCl s cl { k with trace := k.trace.erase t }) t.part t

/-! ### Host-class cores (R22, R190, R198) -/
/-- The operations of a sync access. -/
def syncOps : Fin 5 → SyncOp | 0 => .faa | 1 => .ld | 2 => .st | 3 => .wait | 4 => .bar
/-- What a host-class core reaches: LPDDR6 and staging SRAM. -/
def hccSpace (sp : Fin 4) : Bool := sp.val == 1 || sp.val == 2
/-- The hub cache's translation of the pages that an access touches (R198). -/
def hccTouch (s : State) (p : Nat) (sp : Fin 4) (a n : Nat) : State :=
  if sp.val = 2 then (rangePages [(a, n)]).foldl (fun s g => modHub s (fun h => { h with xlate := touchCache 1024 h.xlate (p, 2, g) })) s else s
def hccNode (s : State) (p : Nat) (sp : Fin 4) (cl a : Nat) : Node :=
  if sp.val = 1 then .cluster cl else match pageOf s p 2 a with | some e => .mc (ptPkg e) | none => .hub 0

/-- A load: lines that the cache holds as stored are seen (written back first: log 21); poisoned bytes are a free value (log 1). -/
def hccLoad (s : State) (h p : Nat) (sp : Fin 4) (cl a n : Nat) (ecc : Ecc) : State :=
  let w : Who := { pid := p, cl := cl, stn := false }
  let s0 := hccTouch (invalidateLines s w sp.val [(a, List.replicate n 0)]) p sp a n
  let s1 := if sp.val = 2 then eccRead (ddLoad s0 (.hub (16 + h)) p 2 [(a, n)]) p [(a, n)] ecc else ddTrip s0 (.hub (16 + h)) (.cluster cl) 1 (bulkFlits n)
  let put := fun (s : State) (b : List Byte) => modHub s (fun x => { x with hccLoad := tset x.hccLoad h b })
  match tierRead s1 w sp.val a n with
  | .ok b => put s1 b
  | .error f =>
    if f.code = E_REFUSED then modHub (fwRefuse s1 (hccNode s p sp cl f.addr) p 0 f.detail (nodeCode (.hub (16 + h))) f.addr) (fun x => { x with hccLoad := tdel x.hccLoad h })
    else let b := freeBytes s1 n; put b.2 b.1
/-- The 64-byte lines of a store, by space, cluster or partition, and number. -/
def storeLines (s : State) (h : Nat) : HccAccess → List (Nat × Nat × Nat)
  | .store sp cl a bs => (cutAt 64 a.toNat bs.length).map (fun u => (sp.val, if sp.val = 1 then cl.val else (hccOwner s h).getD 8, u.1 / 64))
  | _ => []
/-- The lines that the hub cache holds as stored. -/
def dirtyLines (s : State) : List (Nat × Nat × Nat) := (s.hub.hccDirty.flatMap (fun d => d.2.flatMap (storeLines s d.1))).eraseDups
/-- The lines of the 32 MiB hub cache (R190). -/
def cacheLines : Nat := 524288
/-- A cache that holds more than its lines writes back a core's stores, oldest first (log 118: DESIGN CHOICE). -/
def hccFit (h : Nat) : Nat → State → State
  | 0, s => s
  | n + 1, s => if (dirtyLines s).length ≤ cacheLines then s else hccFit h n (writeBack s h (fun x => (tget s.hub.hccDirty h []).head? == some x))

/-- A store enters the cache; other cores' stores to its lines are written back first. -/
def hccStore (s : State) (h p : Nat) (sp : Fin 4) (cl : ClIx) (a : BitVec 48) (b : List Byte) : State :=
  let w : Who := { pid := p, cl := cl.val, stn := false }
  let s1 := hccTouch (invalidateLines s w sp.val [(a.toNat, b)]) p sp a.toNat b.length
  let l := tget s1.hub.hccDirty h [] ++ [.store sp cl a b]
  hccFit h l.length (modHub s1 (fun x => { x with hccDirty := tset x.hccDirty h l }))
/-- A sync operation: every store that the core issued before it is written back first. -/
def hccSync (s : State) (h p : Nat) (op : SyncOp) (o : ObjRef) (cond : BitVec 3) (arg : Word) : State :=
  let s1 := writeBack s h (fun _ => true)
  let t := s1.hub.nextTag
  let q : SyncReq := { src := .hcc h, pid := p, op := op, obj := o, arg := arg, cond := cond, tid := t, seq := 0, near := false }
  sendSync (modHub s1 (fun x => { x with nextTag := t + 1 })) (.hub (16 + h)) q

/-- The instruction of an access retires (R397). -/
def hccRetire (s : State) (h : Nat) : State := modHub s (fun x => x.setReg (0x301040 + 4 * h) (hubReg x (0x301040 + 4 * h) + 1))
/-- HOST_CLASS_CORE_ACCESS (R22, R190). A core assigned to no partition sends no packets; none passes a stopped island.
(log 67: DEDUCED.) -/
def execHostClassCoreAccess (h : Fin 16) (a : HccAccess) (s : State) : Out :=
  match hccOwner s h.val with
  | none => .next s
  | some p =>
    if !(pmActive s) then .next s
    else
      let t := hccRetire s h.val
      match a with
      | .load sp cl addr n ecc => .next (if hccSpace sp then hccLoad t h.val p sp cl.val addr.toNat n ecc else t)
      | .store sp cl addr b => .next (if hccSpace sp then hccStore t h.val p sp cl addr b else t)
      | .sync op name cond arg => match objOf name with
        | none => .next t
        | some o => .next (hccSync t h.val p (syncOps op) o cond arg)

end Sys2Proof.Machine
end

