-- ==== Sys2Proof/Machine/Dispatch.lean ====
section
/-! DEFINITION. What each command does: one arm per command, one call per arm. -/
namespace Sys2Proof.Machine

def exec (i : Instr) (s : State) : Host.Outcome State Fault Refusal :=
  match i with
  | .add c r f => Sys2Proof.Machine.execAdd c r f s
  | .sub c r f => Sys2Proof.Machine.execSub c r f s
  | .and_ c r f => Sys2Proof.Machine.execAnd c r f s
  | .or_ c r f => Sys2Proof.Machine.execOr c r f s
  | .xor c r f => Sys2Proof.Machine.execXor c r f s
  | .shl c r f => Sys2Proof.Machine.execShl c r f s
  | .shr c r f => Sys2Proof.Machine.execShr c r f s
  | .sra c r f => Sys2Proof.Machine.execSra c r f s
  | .mul c r f => Sys2Proof.Machine.execMul c r f s
  | .mulh c r f => Sys2Proof.Machine.execMulh c r f s
  | .mulhu c r f => Sys2Proof.Machine.execMulhu c r f s
  | .min c r f => Sys2Proof.Machine.execMin c r f s
  | .max c r f => Sys2Proof.Machine.execMax c r f s
  | .minu c r f => Sys2Proof.Machine.execMinu c r f s
  | .maxu c r f => Sys2Proof.Machine.execMaxu c r f s
  | .sel c r f => Sys2Proof.Machine.execSel c r f s
  | .cmpEq c r f => Sys2Proof.Machine.execCmpEq c r f s
  | .cmpNe c r f => Sys2Proof.Machine.execCmpNe c r f s
  | .cmpLt c r f => Sys2Proof.Machine.execCmpLt c r f s
  | .cmpLtu c r f => Sys2Proof.Machine.execCmpLtu c r f s
  | .cmpGe c r f => Sys2Proof.Machine.execCmpGe c r f s
  | .cmpGeu c r f => Sys2Proof.Machine.execCmpGeu c r f s
  | .tagYng c r f => Sys2Proof.Machine.execTagYng c r f s
  | .pand c r f => Sys2Proof.Machine.execPand c r f s
  | .por c r f => Sys2Proof.Machine.execPor c r f s
  | .pxor c r f => Sys2Proof.Machine.execPxor c r f s
  | .pnot c r f => Sys2Proof.Machine.execPnot c r f s
  | .mfs c r f => Sys2Proof.Machine.execMfs c r f s
  | .addi c r f => Sys2Proof.Machine.execAddi c r f s
  | .andi c r f => Sys2Proof.Machine.execAndi c r f s
  | .ori c r f => Sys2Proof.Machine.execOri c r f s
  | .xori c r f => Sys2Proof.Machine.execXori c r f s
  | .shli c r f => Sys2Proof.Machine.execShli c r f s
  | .shri c r f => Sys2Proof.Machine.execShri c r f s
  | .srai c r f => Sys2Proof.Machine.execSrai c r f s
  | .muli c r f => Sys2Proof.Machine.execMuli c r f s
  | .cmpiEq c r f => Sys2Proof.Machine.execCmpiEq c r f s
  | .cmpiNe c r f => Sys2Proof.Machine.execCmpiNe c r f s
  | .cmpiLt c r f => Sys2Proof.Machine.execCmpiLt c r f s
  | .cmpiLtu c r f => Sys2Proof.Machine.execCmpiLtu c r f s
  | .cmpiGe c r f => Sys2Proof.Machine.execCmpiGe c r f s
  | .cmpiGeu c r f => Sys2Proof.Machine.execCmpiGeu c r f s
  | .li c r f => Sys2Proof.Machine.execLi c r f s
  | .br c r f => Sys2Proof.Machine.execBr c r f s
  | .jal c r f => Sys2Proof.Machine.execJal c r f s
  | .jr c r f => Sys2Proof.Machine.execJr c r f s
  | .loopI c r f => Sys2Proof.Machine.execLoopI c r f s
  | .loopR c r f => Sys2Proof.Machine.execLoopR c r f s
  | .brk c r f => Sys2Proof.Machine.execBrk c r f s
  | .ldLW c r f => Sys2Proof.Machine.execLdLW c r f s
  | .ldLH c r f => Sys2Proof.Machine.execLdLH c r f s
  | .ldLHs c r f => Sys2Proof.Machine.execLdLHs c r f s
  | .ldLB c r f => Sys2Proof.Machine.execLdLB c r f s
  | .ldLBs c r f => Sys2Proof.Machine.execLdLBs c r f s
  | .stLW c r f => Sys2Proof.Machine.execStLW c r f s
  | .stLH c r f => Sys2Proof.Machine.execStLH c r f s
  | .stLB c r f => Sys2Proof.Machine.execStLB c r f s
  | .match c r f => Sys2Proof.Machine.execMatch c r f s
  | .recv c r f => Sys2Proof.Machine.execRecv c r f s
  | .send c r f => Sys2Proof.Machine.execSend c r f s
  | .sendT c r f => Sys2Proof.Machine.execSendT c r f s
  | .fin c r f => Sys2Proof.Machine.execFin c r f s
  | .portLand c r f => Sys2Proof.Machine.execPortLand c r f s
  | .steer c r f => Sys2Proof.Machine.execSteer c r f s
  | .steerP c r f => Sys2Proof.Machine.execSteerP c r f s
  | .merge c r f => Sys2Proof.Machine.execMerge c r f s
  | .mergeAny c r f => Sys2Proof.Machine.execMergeAny c r f s
  | .synFaa c r f => Sys2Proof.Machine.execSynFaa c r f s
  | .synLd c r f => Sys2Proof.Machine.execSynLd c r f s
  | .synSt c r f => Sys2Proof.Machine.execSynSt c r f s
  | .synWait c r f => Sys2Proof.Machine.execSynWait c r f s
  | .synBar c r f => Sys2Proof.Machine.execSynBar c r f s
  | .ctxSw c r f => Sys2Proof.Machine.execCtxSw c r f s
  | .secSend c r f => Sys2Proof.Machine.execSecSend c r f s
  | .nop c r f => Sys2Proof.Machine.execNop c r f s
  | .trap c r f => Sys2Proof.Machine.execTrap c r f s
  | .bkpt c r f => Sys2Proof.Machine.execBkpt c r f s
  | .mark c r f => Sys2Proof.Machine.execMark c r f s
  | .mmaH c r f => Sys2Proof.Machine.execMmaH c r f s
  | .mmaS c r f => Sys2Proof.Machine.execMmaS c r f s
  | .drain c r f => Sys2Proof.Machine.execDrain c r f s
  | .accSeq c r f => Sys2Proof.Machine.execAccSeq c r f s
  | .accDflt c r f => Sys2Proof.Machine.execAccDflt c r f s
  | .vop c r f => Sys2Proof.Machine.execVop c r f s
  | .vred c r f => Sys2Proof.Machine.execVred c r f s
  | .vcmp c r f => Sys2Proof.Machine.execVcmp c r f s
  | .vexp c r f => Sys2Proof.Machine.execVexp c r f s
  | .halo c r f => Sys2Proof.Machine.execHalo c r f s
  | .rlLd c r f => Sys2Proof.Machine.execRlLd c r f s
  | .rlSt c r f => Sys2Proof.Machine.execRlSt c r f s
  | .rlPf c r f => Sys2Proof.Machine.execRlPf c r f s
  | .dscLd c r f => Sys2Proof.Machine.execDscLd c r f s
  | .dscWr c r f => Sys2Proof.Machine.execDscWr c r f s
  | .dscRd c r f => Sys2Proof.Machine.execDscRd c r f s
  | .dscTgx c r f => Sys2Proof.Machine.execDscTgx c r f s
  | .firingStart c => Sys2Proof.Machine.execFiringStart c s
  | .retirement c k => Sys2Proof.Machine.execRetirement c k s
  | .tokenArrival c port => Sys2Proof.Machine.execTokenArrival c port s
  | .landingSlotFree c x port k => Sys2Proof.Machine.execLandingSlotFree c x port k s
  | .switchTokenArrival cl side net slot => Sys2Proof.Machine.execSwitchTokenArrival cl side net slot s
  | .switchForward cl net => Sys2Proof.Machine.execSwitchForward cl net s
  | .steeringPair cl u => Sys2Proof.Machine.execSteeringPair cl u s
  | .sectionToken cl side slot => Sys2Proof.Machine.execSectionToken cl side slot s
  | .switchDrainEnd cl => Sys2Proof.Machine.execSwitchDrainEnd cl s
  | .coreSectionToken c port => Sys2Proof.Machine.execCoreSectionToken c port s
  | .contextSwitchDone c => Sys2Proof.Machine.execContextSwitchDone c s
  | .matrixQueueStart c retry => Sys2Proof.Machine.execMatrixQueueStart c retry s
  | .vectorQueueStart c retry => Sys2Proof.Machine.execVectorQueueStart c retry s
  | .nanReport c => Sys2Proof.Machine.execNanReport c s
  | .nanAnswer c => Sys2Proof.Machine.execNanAnswer c s
  | .stepOverflowReport c => Sys2Proof.Machine.execStepOverflowReport c s
  | .rollerRequestTaken cl ch => Sys2Proof.Machine.execRollerRequestTaken cl ch s
  | .rollerTransferDone cl ch => Sys2Proof.Machine.execRollerTransferDone cl ch s
  | .ringEntryComplete cl ch => Sys2Proof.Machine.execRingEntryComplete cl ch s
  | .meshPacketDelivery n ecc => Sys2Proof.Machine.execMeshPacketDelivery n ecc s
  | .paramRead cl ch ecc => Sys2Proof.Machine.execParamRead cl ch ecc s
  | .syncOperation u => Sys2Proof.Machine.execSyncOperation u s
  | .syncResponse c r => Sys2Proof.Machine.execSyncResponse c r s
  | .syncTimeout c r => Sys2Proof.Machine.execSyncTimeout c r s
  | .syncCancel u => Sys2Proof.Machine.execSyncCancel u s
  | .gradientPacket m => Sys2Proof.Machine.execGradientPacket m s
  | .updateTile m ecc => Sys2Proof.Machine.execUpdateTile m ecc s
  | .completionMessage p m => Sys2Proof.Machine.execCompletionMessage p m s
  | .forcingMessage p => Sys2Proof.Machine.execForcingMessage p s
  | .outcomeSample p => Sys2Proof.Machine.execOutcomeSample p s
  | .decision p m => Sys2Proof.Machine.execDecision p m s
  | .acknowledgement p m => Sys2Proof.Machine.execAcknowledgement p m s
  | .partStepCtlOpen fn p v => Sys2Proof.Machine.execPartStepCtlOpen fn p v s
  | .partStepCtlAbort fn p v => Sys2Proof.Machine.execPartStepCtlAbort fn p v s
  | .partLscale fn p v => Sys2Proof.Machine.execPartLscale fn p v s
  | .updLastp fn m p v => Sys2Proof.Machine.execUpdLastp fn m p v s
  | .updCtlEnable fn m v => Sys2Proof.Machine.execUpdCtlEnable fn m v s
  | .updCtlDisable fn m v => Sys2Proof.Machine.execUpdCtlDisable fn m v s
  | .partPrintCtlEnable fn p v => Sys2Proof.Machine.execPartPrintCtlEnable fn p v s
  | .printDone p ecc => Sys2Proof.Machine.execPrintDone p ecc s
  | .sinkToken lp g k => Sys2Proof.Machine.execSinkToken lp g k s
  | .resultDelivery lp g => Sys2Proof.Machine.execResultDelivery lp g s
  | .rgCtlEnable fn lp g v => Sys2Proof.Machine.execRgCtlEnable fn lp g v s
  | .rgCtlDisable fn lp g v => Sys2Proof.Machine.execRgCtlDisable fn lp g v s
  | .flitReceive lp f c => Sys2Proof.Machine.execFlitReceive lp f c s
  | .tag lp plain => Sys2Proof.Machine.execTag lp plain s
  | .laneFaultDeclared lp lane down => Sys2Proof.Machine.execLaneFaultDeclared lp lane down s
  | .laneFault lp lane => Sys2Proof.Machine.execLaneFault lp lane s
  | .lockRegained lp => Sys2Proof.Machine.execLockRegained lp s
  | .detect lp rx tx => Sys2Proof.Machine.execDetect lp rx tx s
  | .equalise lp rx tx => Sys2Proof.Machine.execEqualise lp rx tx s
  | .align lp => Sys2Proof.Machine.execAlign lp s
  | .ident lp node domain port => Sys2Proof.Machine.execIdent lp node domain port s
  | .secure lp far => Sys2Proof.Machine.execSecure lp far s
  | .lnkCtlEnable fn lp v => Sys2Proof.Machine.execLnkCtlEnable fn lp v s
  | .lnkCtlDisable fn lp v => Sys2Proof.Machine.execLnkCtlDisable fn lp v s
  | .rekey fn lp v => Sys2Proof.Machine.execRekey fn lp v s
  | .rekeyCounter lp => Sys2Proof.Machine.execRekeyCounter lp s
  | .spare fn lp v => Sys2Proof.Machine.execSpare fn lp v s
  | .hubNode fn v => Sys2Proof.Machine.execHubNode fn v s
  | .stnCtlEnable fn p e v => Sys2Proof.Machine.execStnCtlEnable fn p e v s
  | .stnCtlDisable fn p e v => Sys2Proof.Machine.execStnCtlDisable fn p e v s
  | .coreCtlResume fn c v => Sys2Proof.Machine.execCoreCtlResume fn c v s
  | .clSwCtlEnable fn cl v => Sys2Proof.Machine.execClSwCtlEnable fn cl v s
  | .clSwCtlDisable fn cl v => Sys2Proof.Machine.execClSwCtlDisable fn cl v s
  | .hvCfgEnable fn o v => Sys2Proof.Machine.execHvCfgEnable fn o v s
  | .hvCfgDisable fn o v => Sys2Proof.Machine.execHvCfgDisable fn o v s
  | .hvValn fn o v => Sys2Proof.Machine.execHvValn fn o v s
  | .rlRctlEnable fn cl ch v => Sys2Proof.Machine.execRlRctlEnable fn cl ch v s
  | .rlRctlDisable fn cl ch v => Sys2Proof.Machine.execRlRctlDisable fn cl ch v s
  | .partNanCtlHalt fn p v => Sys2Proof.Machine.execPartNanCtlHalt fn p v s
  | .partNanRec0Valid fn p v => Sys2Proof.Machine.execPartNanRec0Valid fn p v s
  | .partHtkCtlLoad fn p v => Sys2Proof.Machine.execPartHtkCtlLoad fn p v s
  | .partHtkCtlSweep fn p v => Sys2Proof.Machine.execPartHtkCtlSweep fn p v s
  | .sweepPage p => Sys2Proof.Machine.execSweepPage p s
  | .partHwrCtlEnable fn p v => Sys2Proof.Machine.execPartHwrCtlEnable fn p v s
  | .doorbell p off v whole => Sys2Proof.Machine.execDoorbell p off v whole s
  | .indAddr fn j v => Sys2Proof.Machine.execIndAddr fn j v s
  | .indDataWrite fn j v => Sys2Proof.Machine.execIndDataWrite fn j v s
  | .indDataRead fn j => Sys2Proof.Machine.execIndDataRead fn j s
  | .indirectResponse j => Sys2Proof.Machine.execIndirectResponse j s
  | .partialByteWrite fn off v be => Sys2Proof.Machine.execPartialByteWrite fn off v be s
  | .registerWrite fn off v => Sys2Proof.Machine.execRegisterWrite fn off v s
  | .partIrqEn fn p v => Sys2Proof.Machine.execPartIrqEn fn p v s
  | .hubIrqEn fn v => Sys2Proof.Machine.execHubIrqEn fn v s
  | .snapCtrlTake fn v => Sys2Proof.Machine.execSnapCtrlTake fn v s
  | .marker j => Sys2Proof.Machine.execMarker j s
  | .snapAck j => Sys2Proof.Machine.execSnapAck j s
  | .trcCtlEnable fn p v => Sys2Proof.Machine.execTrcCtlEnable fn p v s
  | .traceSample c => Sys2Proof.Machine.execTraceSample c s
  | .partSrecCtlEnable fn p v => Sys2Proof.Machine.execPartSrecCtlEnable fn p v s
  | .partSecureCtlEnable fn p v => Sys2Proof.Machine.execPartSecureCtlEnable fn p v s
  | .partProofCtlStart fn p v => Sys2Proof.Machine.execPartProofCtlStart fn p v s
  | .proofDone p ecc => Sys2Proof.Machine.execProofDone p ecc s
  | .partCreate b => Sys2Proof.Machine.execPartCreate b s
  | .partGrant b => Sys2Proof.Machine.execPartGrant b s
  | .partRevoke b => Sys2Proof.Machine.execPartRevoke b s
  | .partQuota b => Sys2Proof.Machine.execPartQuota b s
  | .partTeardown b => Sys2Proof.Machine.execPartTeardown b s
  | .slAttach b => Sys2Proof.Machine.execSlAttach b s
  | .slDetach b => Sys2Proof.Machine.execSlDetach b s
  | .fwCommit b => Sys2Proof.Machine.execFwCommit b s
  | .fwUpdate b img => Sys2Proof.Machine.execFwUpdate b img s
  | .pageMap b => Sys2Proof.Machine.execPageMap b s
  | .pageUnmap b => Sys2Proof.Machine.execPageUnmap b s
  | .pageAttr b => Sys2Proof.Machine.execPageAttr b s
  | .keyMode b => Sys2Proof.Machine.execKeyMode b s
  | .logRead b => Sys2Proof.Machine.execLogRead b s
  | .fixerPassEnd p => Sys2Proof.Machine.execFixerPassEnd p s
  | .vfFlr p => Sys2Proof.Machine.execVfFlr p s
  | .pfFlr => Sys2Proof.Machine.execPfFlr s
  | .hotReset => Sys2Proof.Machine.execHotReset s
  | .perstNAssert => Sys2Proof.Machine.execPerstNAssert s
  | .perstNDeassert b => Sys2Proof.Machine.execPerstNDeassert b s
  | .configurationRequest fn off w sv => Sys2Proof.Machine.execConfigurationRequest fn off w sv s
  | .completion tag st host => Sys2Proof.Machine.execCompletion tag st host s
  | .completionTimeout tag => Sys2Proof.Machine.execCompletionTimeout tag s
  | .poisonedWrite fn => Sys2Proof.Machine.execPoisonedWrite fn s
  | .doeRequest fn o => Sys2Proof.Machine.execDoeRequest fn o s
  | .doeAbort fn => Sys2Proof.Machine.execDoeAbort fn s
  | .getMeasurements fn => Sys2Proof.Machine.execGetMeasurements fn s
  | .seal p policy expect => Sys2Proof.Machine.execSeal p policy expect s
  | .ideKm fn k => Sys2Proof.Machine.execIdeKm fn k s
  | .ideLost fn => Sys2Proof.Machine.execIdeLost fn s
  | .ideRestored fn => Sys2Proof.Machine.execIdeRestored fn s
  | .setEndpointId eid bus => Sys2Proof.Machine.execSetEndpointId eid bus s
  | .mctpMessage msg => Sys2Proof.Machine.execMctpMessage msg s
  | .sealedRead loc => Sys2Proof.Machine.execSealedRead loc s
  | .inputStartThreshold => Sys2Proof.Machine.execInputStartThreshold s
  | .railInRegulation k => Sys2Proof.Machine.execRailInRegulation k s
  | .inputStopThreshold => Sys2Proof.Machine.execInputStopThreshold s
  | .railOutOfRegulation k => Sys2Proof.Machine.execRailOutOfRegulation k s
  | .temperatureSample t => Sys2Proof.Machine.execTemperatureSample t s
  | .capControl mv dw => Sys2Proof.Machine.execCapControl mv dw s
  | .pmCap fn v => Sys2Proof.Machine.execPmCap fn v s
  | .standbyEnter fn v => Sys2Proof.Machine.execStandbyEnter fn v s
  | .standbyExit fn v => Sys2Proof.Machine.execStandbyExit fn v s
  | .standbyDone => Sys2Proof.Machine.execStandbyDone s
  | .meshWeightWindow cl => Sys2Proof.Machine.execMeshWeightWindow cl s
  | .coreFault c => Sys2Proof.Machine.execCoreFault c s
  | .sramFault a => Sys2Proof.Machine.execSramFault a s
  | .subchannelFault m j => Sys2Proof.Machine.execSubchannelFault m j s
  | .uncoveredFault u => Sys2Proof.Machine.execUncoveredFault u s
  | .subchannelRetirement m => Sys2Proof.Machine.execSubchannelRetirement m s
  | .lossReport p => Sys2Proof.Machine.execLossReport p s
  | .moltWorsening u => Sys2Proof.Machine.execMoltWorsening u s
  | .molt u => Sys2Proof.Machine.execMolt u s
  | .spareTest sp ok => Sys2Proof.Machine.execSpareTest sp ok s
  | .flitSlot lp => Sys2Proof.Machine.execFlitSlot lp s
  | .readClear fn off be ecc => Sys2Proof.Machine.execReadClear fn off be ecc s
  | .hostClassCoreAccess h a => Sys2Proof.Machine.execHostClassCoreAccess h a s
  | .rotDone b => Sys2Proof.Machine.execRotDone b s
  | .dataLinkUp => Sys2Proof.Machine.execDataLinkUp s
  | .inputRemovedAfterTrip => Sys2Proof.Machine.execInputRemovedAfterTrip s

end Sys2Proof.Machine
end

