-- ==== Sys2Proof/Machine/Step.lean ====
section
/-! DEFINITION. One step: the command at the front of the queue. -/
namespace Sys2Proof.Machine

/-- The command at the front is carried out on the state with the rest of the queue; with an empty queue the block idles, but for its trace engine (log 18)
and for step 9 of start-up (log 137).
(log 18: DESIGN CHOICE; log 39: DESIGN CHOICE; log 137: DESIGN CHOICE.) -/
def step (s : State) : Host.Outcome State Fault Refusal :=
  match s.pending with
  | [] => .next (bootStep (traceDrain s))
  | c :: r => exec c { s with pending := r }

/-- The state with the command that a word spells at the front of its queue; the table spells none. -/
def State.withFetchWord (s : State) (nbits w : Nat) : State :=
  match decodeTableWord nbits w with
  | some c => { s with pending := c :: s.pending }
  | none => s

end Sys2Proof.Machine
end

