-- ==== Sys2Proof/WellFormed.lean ====
section
/-! DEFINITION. Which commands can be sent: the operands that no such command can carry are refused (log 11). -/
namespace Sys2Proof

/-- A flit carries 240 payload bytes (R279). -/
def flitWf (f : Flit) : Bool := f.payload.length == 240
/-- A DOE data object holds at most 4,096 DW of payload (R308). -/
def doeWf (o : DoeObject) : Bool := decide (o.payload.length ≤ 4096)
/-- A write with every byte enable set is no partial write (R355). -/
def partialWf (be : BitVec 4) : Bool := be != 0xF#4

/-- The command can be sent. (log 11: DESIGN CHOICE.) -/
def wellFormed : Instr → Bool
  | .flitReceive _ f _ => flitWf f
  | .doeRequest _ o => doeWf o
  | .partialByteWrite _ _ _ be => partialWf be
  | _ => true

end Sys2Proof
end

