-- ==== Sys2Proof/Safety.lean ====
section
/-! DEFINITION. What a safe run is, the invariants that claims speak of, and the words in which claims about an instruction are
stated: when a run can issue it, what a register reads, and what stays as it was. -/
namespace Sys2Proof

open Machine

/-- A step that answers a next state: the block goes on. -/
def GoesOn (s : State) : Prop := ∃ t, step s = .next t
/-- Every command that waits can be sent. -/
def QueueWf (s : State) : Prop := ∀ c ∈ s.pending, wellFormed c = true

/-- Every data SRAM, staging SRAM, LPDDR6 frame and host-tier sector is in its canonical form. -/
structure MemOk (s : State) : Prop where
  sram : ∀ e ∈ s.cores, Mem.wf e.2.sram
  staging : ∀ e ∈ s.clusters, Mem.wf e.2.staging
  frames : ∀ e ∈ s.mcs, ∀ f ∈ e.2.frames, Mem.wf f.2
  host : ∀ h ∈ s.hub.host, Mem.wf h.data
  hostOld : ∀ h ∈ s.hub.hostOld, Mem.wf h.data

/-! ### Instructions of a run -/

/-- Run `id` of core `c`, which stands as `r`, executes an instruction with guard `g` that names the scalar registers `uses`: it can
issue, no NaN trap is due, the word at its program counter spells an instruction (R61), the guard is not the reserved one and holds (R60), and no count of an earlier `vcmp` or `vexp` is awaited (R66). -/
abbrev Ready (s : State) (c : CoreIx) (id : RunId) (r : Run) (g : Guard) (uses : List (BitVec 5)) : Prop :=
  mayIssue s c.val id = some r ∧ r.nan = none ∧ wordUndefined (fetchWord (getCore s c.val) r) = false ∧ (g.gn && g.gp == 0) = false ∧ guardOn g r = true ∧
    awaitsCount (getCore s c.val) r.uid uses = false

/-- Execution does not pass word 511 after the word at the program counter (R71). -/
abbrev HasNext (r : Run) : Prop := (pastWord r r.pc.toNat).2 = false

/-- A run may write scalar register `rd`: the setup run any, a firing s0 to s23 (R57). -/
abbrev MayWrite (id : RunId) (rd : BitVec 5) : Prop := id = .setup ∨ rd.toNat < 24

/-- What run `id` of core `c` reads in scalar register n. -/
def readS (s : State) (c : CoreIx) (id : RunId) (n : BitVec 5) : Word :=
  match runOf (getCore s c.val) id with
  | some r => rdS (ctxOf (getCore s c.val) (getCore s c.val).active) r n
  | none => 0

/-- What it reads in predicate n. -/
def readP (s : State) (c : CoreIx) (id : RunId) (n : BitVec 3) : Bool :=
  match runOf (getCore s c.val) id with
  | some r => rdP r n
  | none => false

/-- From `s` to `t` nothing changes but core `c`. -/
structure OnlyCore (s t : State) (c : Nat) : Prop where
  rest : { t with cores := [] } = { s with cores := [] }
  others : ∀ d, d ≠ c → getCore t d = getCore s d

/-- From `s` to `t` nothing changes but the state of run `id` of core `c`, which comes to stand as `r'`, the shared scalar registers, and
CORE_ISSUED, which counts one (R395). Memory, banks, stores, queues and every other register stand in the fields that `core` and
`outside` cover. -/
structure OnlyRun (s t : State) (c : CoreIx) (id : RunId) (r' : Run) : Prop where
  outside : OnlyCore s t c.val
  run : runOf (getCore t c.val) id = some r'
  core : { getCore t c.val with regs := [], ctxs := [], firings := [] } = { getCore s c.val with regs := [], ctxs := [], firings := [] }
  bytes : ∀ a, mread (getCore t c.val).sram a = mread (getCore s c.val).sram a
  regs : ∀ o, coreReg (getCore t c.val) o = coreReg (getCore s c.val) o + (if o = 0x094 then 1 else 0)
  firings : ∀ n : Fin 8, id ≠ .slot n → tfind (getCore t c.val).firings n.val = tfind (getCore s c.val).firings n.val
  ctxs : ∀ x, x ≠ (getCore s c.val).active → ctxOf (getCore t c.val) x = ctxOf (getCore s c.val) x
  ctx : { ctxOf (getCore t c.val) (getCore s c.val).active with setup := none, shared := [] } =
    { ctxOf (getCore s c.val) (getCore s c.val).active with setup := none, shared := [] }
  setup : id ≠ .setup → (ctxOf (getCore t c.val) (getCore s c.val).active).setup = (ctxOf (getCore s c.val) (getCore s c.val).active).setup

/-- Scalar register `rd` has taken `v`; but for that, the run stands as `r'`, and nothing else has changed. -/
def WroteSTo (s t : State) (c : CoreIx) (id : RunId) (r' : Run) (rd : BitVec 5) (v : Word) : Prop :=
  (∀ n, readS t c id n = if n = rd then v else readS s c id n) ∧ ∃ u, OnlyRun s t c id { r' with s := u }

/-- The same, where run `r` has gone on to the next word. -/
def WroteS (s t : State) (c : CoreIx) (id : RunId) (r : Run) (rd : BitVec 5) (v : Word) : Prop :=
  WroteSTo s t c id (pastWord r r.pc.toNat).1 rd v

/-- The instruction of run `r` has written `v` to predicate `pd` (p0 discards it), and gone on; nothing else has changed. -/
def WroteP (s t : State) (c : CoreIx) (id : RunId) (r : Run) (pd : BitVec 3) (v : Bool) : Prop :=
  (∀ n, readP t c id n = if n = pd ∧ pd ≠ 0 then v else readP s c id n) ∧ (∀ n, readS t c id n = readS s c id n) ∧
    ∃ u, OnlyRun s t c id { (pastWord r r.pc.toNat).1 with p := u }

/-- A format A instruction that writes to rd what `val` gives of rs1 and rs2. -/
def ComputesA (mk : CoreIx → RunId → FmtA → Instr) (val : Word → Word → Word) : Prop :=
  ∀ (s : State) (c : CoreIx) (id : RunId) (r : Run) (f : FmtA),
    Ready s c id r f.g [f.rd, f.rs1, f.rs2] → f.rsv = 0 → f.pd = 0 → MayWrite id f.rd → HasNext r →
    ∃ t, exec (mk c id f) s = .next t ∧ WroteS s t c id r f.rd (val (readS s c id f.rs1) (readS s c id f.rs2))

/-- A format B instruction that writes to rd what `val` gives of rs1 and imm32. -/
def ComputesB (mk : CoreIx → RunId → FmtB → Instr) (val : Word → Word → Word) : Prop :=
  ∀ (s : State) (c : CoreIx) (id : RunId) (r : Run) (f : FmtB),
    Ready s c id r f.g [f.rd, f.rs1] → f.rsv = 0 → f.pd = 0 → MayWrite id f.rd → HasNext r →
    ∃ t, exec (mk c id f) s = .next t ∧ WroteS s t c id r f.rd (val (readS s c id f.rs1) f.imm)

/-- A format A comparison: p[pd] takes what `val` says of rs1 and rs2. -/
def ComparesA (mk : CoreIx → RunId → FmtA → Instr) (val : Word → Word → Prop) : Prop :=
  ∀ (s : State) (c : CoreIx) (id : RunId) (r : Run) (f : FmtA),
    Ready s c id r f.g [f.rs1, f.rs2] → f.rsv = 0 → f.rd = 0 → HasNext r →
    ∃ t b, exec (mk c id f) s = .next t ∧ (b = true ↔ val (readS s c id f.rs1) (readS s c id f.rs2)) ∧ WroteP s t c id r f.pd b

/-- A format B comparison. -/
def ComparesB (mk : CoreIx → RunId → FmtB → Instr) (val : Word → Word → Prop) : Prop :=
  ∀ (s : State) (c : CoreIx) (id : RunId) (r : Run) (f : FmtB),
    Ready s c id r f.g [f.rs1] → f.rsv = 0 → f.rd = 0 → HasNext r →
    ∃ t b, exec (mk c id f) s = .next t ∧ (b = true ↔ val (readS s c id f.rs1) f.imm) ∧ WroteP s t c id r f.pd b

/-- A format A operation on predicates, named by bits [2:0] of the rs1 and rs2 fields; the other bits of the fields are 0. -/
def ComputesP (mk : CoreIx → RunId → FmtA → Instr) (one : Bool) (val : Bool → Bool → Bool) : Prop :=
  ∀ (s : State) (c : CoreIx) (id : RunId) (r : Run) (f : FmtA),
    Ready s c id r f.g [] → f.rsv = 0 → f.rd = 0 → f.rs1.toNat < 8 → f.rs2.toNat < 8 → (one = true → f.rs2 = 0) → HasNext r →
    ∃ t, exec (mk c id f) s = .next t ∧
      WroteP s t c id r f.pd (val (readP s c id (BitVec.ofNat 3 f.rs1.toNat)) (readP s c id (BitVec.ofNat 3 f.rs2.toNat)))

/-- The core, the run and the guard of a Wofer instruction. -/
def woferOf : Instr → Option (CoreIx × RunId × Guard)
  | .add c id f => some (c, id, f.g)
  | .sub c id f => some (c, id, f.g)
  | .and_ c id f => some (c, id, f.g)
  | .or_ c id f => some (c, id, f.g)
  | .xor c id f => some (c, id, f.g)
  | .shl c id f => some (c, id, f.g)
  | .shr c id f => some (c, id, f.g)
  | .sra c id f => some (c, id, f.g)
  | .mul c id f => some (c, id, f.g)
  | .mulh c id f => some (c, id, f.g)
  | .mulhu c id f => some (c, id, f.g)
  | .min c id f => some (c, id, f.g)
  | .max c id f => some (c, id, f.g)
  | .minu c id f => some (c, id, f.g)
  | .maxu c id f => some (c, id, f.g)
  | .sel c id f => some (c, id, f.g)
  | .cmpEq c id f => some (c, id, f.g)
  | .cmpNe c id f => some (c, id, f.g)
  | .cmpLt c id f => some (c, id, f.g)
  | .cmpLtu c id f => some (c, id, f.g)
  | .cmpGe c id f => some (c, id, f.g)
  | .cmpGeu c id f => some (c, id, f.g)
  | .tagYng c id f => some (c, id, f.g)
  | .pand c id f => some (c, id, f.g)
  | .por c id f => some (c, id, f.g)
  | .pxor c id f => some (c, id, f.g)
  | .pnot c id f => some (c, id, f.g)
  | .mfs c id f => some (c, id, f.g)
  | .addi c id f => some (c, id, f.g)
  | .andi c id f => some (c, id, f.g)
  | .ori c id f => some (c, id, f.g)
  | .xori c id f => some (c, id, f.g)
  | .shli c id f => some (c, id, f.g)
  | .shri c id f => some (c, id, f.g)
  | .srai c id f => some (c, id, f.g)
  | .muli c id f => some (c, id, f.g)
  | .cmpiEq c id f => some (c, id, f.g)
  | .cmpiNe c id f => some (c, id, f.g)
  | .cmpiLt c id f => some (c, id, f.g)
  | .cmpiLtu c id f => some (c, id, f.g)
  | .cmpiGe c id f => some (c, id, f.g)
  | .cmpiGeu c id f => some (c, id, f.g)
  | .li c id f => some (c, id, f.g)
  | .br c id f => some (c, id, f.g)
  | .jal c id f => some (c, id, f.g)
  | .jr c id f => some (c, id, f.g)
  | .loopI c id f => some (c, id, f.g)
  | .loopR c id f => some (c, id, f.g)
  | .brk c id f => some (c, id, f.g)
  | .ldLW c id f => some (c, id, f.g)
  | .ldLH c id f => some (c, id, f.g)
  | .ldLHs c id f => some (c, id, f.g)
  | .ldLB c id f => some (c, id, f.g)
  | .ldLBs c id f => some (c, id, f.g)
  | .stLW c id f => some (c, id, f.g)
  | .stLH c id f => some (c, id, f.g)
  | .stLB c id f => some (c, id, f.g)
  | .match c id f => some (c, id, f.g)
  | .recv c id f => some (c, id, f.g)
  | .send c id f => some (c, id, f.g)
  | .sendT c id f => some (c, id, f.g)
  | .fin c id f => some (c, id, f.g)
  | .portLand c id f => some (c, id, f.g)
  | .steer c id f => some (c, id, f.g)
  | .steerP c id f => some (c, id, f.g)
  | .merge c id f => some (c, id, f.g)
  | .mergeAny c id f => some (c, id, f.g)
  | .synFaa c id f => some (c, id, f.g)
  | .synLd c id f => some (c, id, f.g)
  | .synSt c id f => some (c, id, f.g)
  | .synWait c id f => some (c, id, f.g)
  | .synBar c id f => some (c, id, f.g)
  | .ctxSw c id f => some (c, id, f.g)
  | .secSend c id f => some (c, id, f.g)
  | .nop c id f => some (c, id, f.g)
  | .trap c id f => some (c, id, f.g)
  | .bkpt c id f => some (c, id, f.g)
  | .mark c id f => some (c, id, f.g)
  | .mmaH c id f => some (c, id, f.g)
  | .mmaS c id f => some (c, id, f.g)
  | .drain c id f => some (c, id, f.g)
  | .accSeq c id f => some (c, id, f.g)
  | .accDflt c id f => some (c, id, f.g)
  | .vop c id f => some (c, id, f.g)
  | .vred c id f => some (c, id, f.g)
  | .vcmp c id f => some (c, id, f.g)
  | .vexp c id f => some (c, id, f.g)
  | .halo c id f => some (c, id, f.g)
  | .rlLd c id f => some (c, id, f.g)
  | .rlSt c id f => some (c, id, f.g)
  | .rlPf c id f => some (c, id, f.g)
  | .dscLd c id f => some (c, id, f.g)
  | .dscWr c id f => some (c, id, f.g)
  | .dscRd c id f => some (c, id, f.g)
  | .dscTgx c id f => some (c, id, f.g)
  | _ => none

/-- The reserved bits that the instruction's format has are not all 0 (R61); format V has none. -/
def reservedSet : Instr → Bool
  | .add _ _ f => f.rsv != 0
  | .sub _ _ f => f.rsv != 0
  | .and_ _ _ f => f.rsv != 0
  | .or_ _ _ f => f.rsv != 0
  | .xor _ _ f => f.rsv != 0
  | .shl _ _ f => f.rsv != 0
  | .shr _ _ f => f.rsv != 0
  | .sra _ _ f => f.rsv != 0
  | .mul _ _ f => f.rsv != 0
  | .mulh _ _ f => f.rsv != 0
  | .mulhu _ _ f => f.rsv != 0
  | .min _ _ f => f.rsv != 0
  | .max _ _ f => f.rsv != 0
  | .minu _ _ f => f.rsv != 0
  | .maxu _ _ f => f.rsv != 0
  | .sel _ _ f => f.rsv != 0
  | .cmpEq _ _ f => f.rsv != 0
  | .cmpNe _ _ f => f.rsv != 0
  | .cmpLt _ _ f => f.rsv != 0
  | .cmpLtu _ _ f => f.rsv != 0
  | .cmpGe _ _ f => f.rsv != 0
  | .cmpGeu _ _ f => f.rsv != 0
  | .tagYng _ _ f => f.rsv != 0
  | .pand _ _ f => f.rsv != 0
  | .por _ _ f => f.rsv != 0
  | .pxor _ _ f => f.rsv != 0
  | .pnot _ _ f => f.rsv != 0
  | .mfs _ _ f => f.rsv != 0
  | .addi _ _ f => f.rsv != 0
  | .andi _ _ f => f.rsv != 0
  | .ori _ _ f => f.rsv != 0
  | .xori _ _ f => f.rsv != 0
  | .shli _ _ f => f.rsv != 0
  | .shri _ _ f => f.rsv != 0
  | .srai _ _ f => f.rsv != 0
  | .muli _ _ f => f.rsv != 0
  | .cmpiEq _ _ f => f.rsv != 0
  | .cmpiNe _ _ f => f.rsv != 0
  | .cmpiLt _ _ f => f.rsv != 0
  | .cmpiLtu _ _ f => f.rsv != 0
  | .cmpiGe _ _ f => f.rsv != 0
  | .cmpiGeu _ _ f => f.rsv != 0
  | .li _ _ f => f.rsv != 0
  | .br _ _ f => f.rsv != 0
  | .jal _ _ f => f.rsv != 0
  | .jr _ _ f => f.rsv != 0
  | .loopI _ _ f => f.rsv != 0
  | .loopR _ _ f => f.rsv != 0
  | .brk _ _ f => f.rsv != 0
  | .ldLW _ _ f => f.rsv != 0
  | .ldLH _ _ f => f.rsv != 0
  | .ldLHs _ _ f => f.rsv != 0
  | .ldLB _ _ f => f.rsv != 0
  | .ldLBs _ _ f => f.rsv != 0
  | .stLW _ _ f => f.rsv != 0
  | .stLH _ _ f => f.rsv != 0
  | .stLB _ _ f => f.rsv != 0
  | .match _ _ f => f.rsv != 0
  | .recv _ _ f => f.rsv != 0
  | .send _ _ f => f.rsv != 0
  | .sendT _ _ f => f.rsv != 0
  | .fin _ _ f => f.rsv != 0
  | .portLand _ _ f => f.rsv != 0
  | .steer _ _ f => f.rsv != 0
  | .steerP _ _ f => f.rsv != 0
  | .merge _ _ f => f.rsv != 0
  | .mergeAny _ _ f => f.rsv != 0
  | .synFaa _ _ f => f.rsv != 0
  | .synLd _ _ f => f.rsv != 0
  | .synSt _ _ f => f.rsv != 0
  | .synWait _ _ f => f.rsv != 0
  | .synBar _ _ f => f.rsv != 0
  | .ctxSw _ _ f => f.rsv != 0
  | .secSend _ _ f => f.rsv != 0
  | .nop _ _ f => f.rsv != 0
  | .trap _ _ f => f.rsv != 0
  | .bkpt _ _ f => f.rsv != 0
  | .mark _ _ f => f.rsv != 0
  | .mmaH _ _ f => f.rsv != 0
  | .mmaS _ _ f => f.rsv != 0
  | .drain _ _ f => f.rsv != 0
  | .accSeq _ _ f => f.rsv != 0
  | .accDflt _ _ f => f.rsv != 0
  | .vop _ _ _ => false
  | .vred _ _ _ => false
  | .vcmp _ _ _ => false
  | .vexp _ _ _ => false
  | .halo _ _ f => f.rsv != 0
  | .rlLd _ _ f => f.rsv != 0
  | .rlSt _ _ f => f.rsv != 0
  | .rlPf _ _ f => f.rsv != 0
  | .dscLd _ _ f => f.rsv != 0
  | .dscWr _ _ f => f.rsv != 0
  | .dscRd _ _ f => f.rsv != 0
  | .dscTgx _ _ f => f.rsv != 0
  | _ => false

/-- The state in which an instruction of run `r` has raised a trap (R89). -/
abbrev trapState (s : State) (c : CoreIx) (id : RunId) (r : Run) (cause info : Nat) : State :=
  takeTrap (setCore s c.val (getCore s c.val).issued) c.val id r cause info

/-- A trap of run `r` has been taken (R89, R90): the record of the first one, LOST of a later one, the hold on the context, the core-trap
interrupt of the partition; the instruction has no effect. -/
structure TookTrap (s t : State) (c : CoreIx) (id : RunId) (r : Run) (cause info : Nat) : Prop where
  record : bit (coreReg (getCore s c.val) 0x004) 0 = false →
    fld (coreReg (getCore t c.val) 0x008) 7 0 = cause ∧ fld (coreReg (getCore t c.val) 0x008) 9 8 = r.ctx % 4 ∧
    fld (coreReg (getCore t c.val) 0x008) 12 10 = RunId.num id ∧ bit (coreReg (getCore t c.val) 0x008) 13 = RunId.isSetup id ∧
    fld (coreReg (getCore t c.val) 0x008) 24 16 = r.pc.toNat ∧
    fld (coreReg (getCore t c.val) 0x00C) 15 0 = r.tg.toNat ∧ fld (coreReg (getCore t c.val) 0x00C) 31 16 = info
  later : bit (coreReg (getCore s c.val) 0x004) 0 = true →
    coreReg (getCore t c.val) 0x008 = coreReg (getCore s c.val) 0x008 ∧ coreReg (getCore t c.val) 0x00C = coreReg (getCore s c.val) 0x00C ∧
    fld (coreReg (getCore t c.val) 0x004) 23 16 = min 255 (fld (coreReg (getCore s c.val) 0x004) 23 16 + 1)
  trapped : bit (coreReg (getCore t c.val) 0x004) 0 = true
  hold : (tfind (getCore t c.val).traps r.ctx).isSome = true
  core : { getCore t c.val with regs := [], traps := [] } = { getCore s c.val with regs := [], traps := [] }
  regs : ∀ o, o ≠ 0x004 → o ≠ 0x008 → o ≠ 0x00C → coreReg (getCore t c.val) o = coreReg (getCore s c.val) o + (if o = 0x094 then 1 else 0)
  irq : bit (partReg (getPart t (ctxPart (ctxOf (getCore s c.val) r.ctx))) 0x40) 0 = true
  others : ∀ d, d ≠ c.val → getCore t d = getCore s d
  units : t.mcs = s.mcs ∧ t.lnks = s.lnks ∧ t.hub = s.hub ∧ t.mesh = s.mesh ∧ t.pending = s.pending

/-- A run after a taken branch: at the target, out of the loops whose body it has left (R72). -/
def jumped (r : Run) (target : BitVec 9) : Run :=
  { r with pc := target, loops := r.loops.dropWhile (fun l => !(decide (l.start.toNat ≤ target.toNat) && decide (target.toNat ≤ l.last.toNat))) }

/-- R72: `loop(count, end)`. -/
def LoopRule (s : State) (c : CoreIx) (id : RunId) (r : Run) (i : Instr) (last : BitVec 9) (count : Nat) : Prop :=
  (last.toNat ≤ r.pc.toNat → exec i s = .next (trapState s c id r 0x01 0)) ∧
  (r.pc.toNat < last.toNat → count ≠ 0 → 2 ≤ r.loops.length → exec i s = .next (trapState s c id r 0x07 0)) ∧
  (r.pc.toNat < last.toNat → count ≠ 0 → r.loops.length < 2 → ∃ t, exec i s = .next t ∧
    OnlyRun s t c id { r with loops := { start := r.pc + 1, last := last, left := count } :: r.loops, pc := r.pc + 1 }) ∧
  (r.pc.toNat < last.toNat → count = 0 → (pastWord r last.toNat).2 = false → ∃ t, exec i s = .next t ∧
    OnlyRun s t c id (pastWord r last.toNat).1)

/-- The bytes of data SRAM that a load of `w` bytes at `a` reads, as a number, the lowest address least significant. -/
def sramNat (s : State) (c : CoreIx) (a : Nat) : Nat → Nat
  | 0 => 0
  | w + 1 => (mread (getCore s c.val).sram a).toNat + 256 * sramNat s c (a + 1) w

/-- The byte address of a local load or store (R73). -/
def addrD (s : State) (c : CoreIx) (id : RunId) (f : FmtD) : Nat := (readS s c id f.rs1 + f.imm.signExtend 32).toNat

/-- A local load of `w` bytes whose value goes through `ext` into rd. -/
def LoadsD (mk : CoreIx → RunId → FmtD → Instr) (w : Nat) (ext : Nat → Word) : Prop :=
  ∀ (s : State) (c : CoreIx) (id : RunId) (r : Run) (f : FmtD),
    Ready s c id r f.g [f.rd, f.rs1] → f.rsv = 0 → MayWrite id f.rd → HasNext r →
    addrD s c id f % w = 0 → addrD s c id f + w ≤ 0x40000 → accBlock (getCore s c.val) [(addrD s c id f, w)] = none →
    ∃ t, exec (mk c id f) s = .next t ∧ WroteS s t c id r f.rd (ext (sramNat s c (addrD s c id f) w))

/-- A local store of the low `w` bytes of rsd: those bytes of data SRAM change, and nothing else does. -/
def StoresD (mk : CoreIx → RunId → FmtD → Instr) (w : Nat) : Prop :=
  ∀ (s : State) (c : CoreIx) (id : RunId) (r : Run) (f : FmtD),
    Ready s c id r f.g [f.rd, f.rs1] → f.rsv = 0 → HasNext r →
    addrD s c id f % w = 0 → addrD s c id f + w ≤ 0x40000 → accBlock (getCore s c.val) [(addrD s c id f, w)] = none →
    ∃ t, exec (mk c id f) s = .next t ∧
      (∀ i, i < w → (mread (getCore t c.val).sram (addrD s c id f + i)).toNat = (readS s c id f.rd).toNat / 256 ^ i % 256) ∧
      (∀ a, a < addrD s c id f ∨ addrD s c id f + w ≤ a → mread (getCore t c.val).sram a = mread (getCore s c.val).sram a) ∧
      OnlyRun s (setCore t c.val { getCore t c.val with sram := (getCore s c.val).sram }) c id (pastWord r r.pc.toNat).1

/-- What stops a local access of `w` bytes (R73, R95): a misaligned address, one beyond data SRAM, an outstanding access that overlaps. -/
def StopsD (mk : CoreIx → RunId → FmtD → Instr) (w : Nat) (load : Bool) : Prop :=
  ∀ (s : State) (c : CoreIx) (id : RunId) (r : Run) (f : FmtD),
    Ready s c id r f.g [f.rd, f.rs1] → f.rsv = 0 → (load = true → MayWrite id f.rd) →
    (addrD s c id f % w ≠ 0 → exec (mk c id f) s = .next (trapState s c id r 0x02 0)) ∧
    (addrD s c id f % w = 0 → addrD s c id f + w > 0x40000 → exec (mk c id f) s = .next (trapState s c id r 0x03 0)) ∧
    (∀ a, addrD s c id f % w = 0 → addrD s c id f + w ≤ 0x40000 → accBlock (getCore s c.val) [(addrD s c id f, w)] = some a →
      (∀ x ∈ accBlocks (getCore s c.val) [(addrD s c id f, w)], x.tier = 0) →
      exec (mk c id f) s = .next (setCore s c.val ((getCore s c.val).count 0x03C 1)))

/-- A token stands at out port `n`, which was free; but for it and the run, which has gone on, nothing has changed. -/
def SentTo (s t : State) (c : CoreIx) (id : RunId) (r : Run) (n : Nat) (tok : Token) : Prop :=
  tfind (getCore t c.val).outs n = some { uid := r.uid, tok := tok } ∧
    (∀ m, m ≠ n → tfind (getCore t c.val).outs m = tfind (getCore s c.val).outs m) ∧
    OnlyRun s (setCore t c.val { getCore t c.val with outs := (getCore s c.val).outs }) c id (pastWord r r.pc.toNat).1

/-- The state after an instruction that has made `k` of the core and `r'` of the run, and goes on to the next word. -/
def doneState (s : State) (c : CoreIx) (id : RunId) (k : Core) (r' : Run) : State :=
  setCore s c.val (k.setRun id (pastWord r' r'.pc.toNat).1).issued

/-- Bank `n` has taken `b` in the setup run; but for it and the run, nothing has changed. -/
def SetBank (s t : State) (c : CoreIx) (r : Run) (n : Nat) (b : Bank) : Prop :=
  tget (getCore t c.val).banks n Bank.reset = b ∧
    (∀ m, m ≠ n → tget (getCore t c.val).banks m Bank.reset = tget (getCore s c.val).banks m Bank.reset) ∧
    OnlyRun s (setCore t c.val { getCore t c.val with banks := (getCore s c.val).banks }) c .setup (pastWord r r.pc.toNat).1

/-- Descriptor register `n` of the active context has taken `d` in the setup run; nothing else but the run has changed. -/
def SetDesc (s t : State) (c : CoreIx) (r : Run) (n : BitVec 4) (d : Desc) : Prop :=
  ∃ sh, ctxOf (getCore t c.val) (getCore s c.val).active =
      { ctxOf (getCore s c.val) (getCore s c.val).active with descs := sh, setup := some (pastWord r r.pc.toNat).1 } ∧
    (∀ m : BitVec 4, tget sh m.toNat 0 = if m = n then d else tget (ctxOf (getCore s c.val) (getCore s c.val).active).descs m.toNat 0) ∧
    (∀ x, x ≠ (getCore s c.val).active → ctxOf (getCore t c.val) x = ctxOf (getCore s c.val) x) ∧
    { getCore t c.val with regs := [], ctxs := [] } = { getCore s c.val with regs := [], ctxs := [] } ∧ OnlyCore s t c.val

/-- The request of a sync operation that run `r` of core `c` issues (R256, R257). -/
def syncReq (s : State) (c : CoreIx) (r : Run) (op : SyncOp) (o : ObjRef) (arg : Word) (cond : BitVec 3) : SyncReq :=
  { src := .core c.val r.uid, pid := ctxPart (ctxOf (getCore s c.val) (getCore s c.val).active), op := op, obj := o, arg := arg, cond := cond,
    tid := (getCore s c.val).nextSeq, seq := (getCore s c.val).nextSeq,
    near := match o with | .hive cl _ => decide (cl.val = c.val / 32) | .port _ _ => false }

/-- The issue of a sync operation on the object that `name` means: the trap of a malformed name, else the request on its way and the run, which
goes on after `syn.st` and waits for the answer else. -/
def SyncRule (s : State) (c : CoreIx) (id : RunId) (r : Run) (i : Instr) (op : SyncOp) (rd : BitVec 5) (pd : BitVec 3) (name arg : Word)
    (cond : BitVec 3) (timed : Bool) : Prop :=
  (objOf name = none → exec i s = .next (trapState s c id r 0x09 0)) ∧
  (∀ o, objOf name = some o → ∃ t, exec i s = .next t ∧
    (let q := syncReq s c r op o arg cond
     if q.near then
       t.mesh = s.mesh ∧ (getCl t (c.val / 32)).hive = { (getCl s (c.val / 32)).hive with arrived := (getCl s (c.val / 32)).hive.arrived ++ [q] }
     else t.clusters = s.clusters ∧ t.mesh = s.mesh ++ [{ pid := q.pid, src := .core c.val, dst := objNode o, tid := q.tid, body := .sync q }]) ∧
    (getCore t c.val).nextSeq = (getCore s c.val).nextSeq + 1 ∧
    OnlyRun s { setCore t c.val { getCore t c.val with nextSeq := (getCore s c.val).nextSeq } with clusters := s.clusters, mesh := s.mesh } c id
      (if op = .st then (pastWord r r.pc.toNat).1
       else { r with phase := .sync { op := op, rd := rd, pd := pd, obj := o, timed := timed, tid := (getCore s c.val).nextSeq } }))

/-- Where an instruction of run `r` issues. -/
def siteFor (s : State) (c : CoreIx) (id : RunId) (r : Run) : Site :=
  { s := s, c := c.val, k := getCore s c.val, x := ctxOf (getCore s c.val) (getCore s c.val).active, r := r, id := id }

/-- The traps of an instruction whose descriptors are well formed (R53, R97): DESC_RANGE for a problem index out of range, then ALIGN, then
SRAM_RANGE; nothing is read or written. -/
def SramRule (s : State) (c : CoreIx) (n : Fin 8) (r : Run) (i : Instr) (vs : List View) : Prop :=
  ((∃ v ∈ vs, vRange v = true) → exec i s = .next (trapState s c (.slot n) r 0x0C 0)) ∧
  ((∀ v ∈ vs, vRange v = false) → (∃ v ∈ vs, vMisaligned v = true) → exec i s = .next (trapState s c (.slot n) r 0x02 0)) ∧
  ((∀ v ∈ vs, vRange v = false) → (∀ v ∈ vs, vMisaligned v = false) → (∃ v ∈ vs, vBeyond v = true) →
    exec i s = .next (trapState s c (.slot n) r 0x03 0))

/-- The bank rules for an instruction of firing `r` on bank `bank` (R43, R44, R68): it enters the matrix queue, after which firing `own` has a
default bank, it waits, or it raises BANK_SEQ. -/
def BankRule (s : State) (c : CoreIx) (n : Fin 8) (r : Run) (i : Instr) (bank : Nat) (rs : List (Nat × Nat)) (op : MxOp) (own : Option Nat) : Prop :=
  let k := getCore s c.val
  let b := bankOf k bank
  let room := k.mq.length < 4 ∧ k.accs.length < 32
  let enters := ∃ t, exec i s = .next t ∧ (getCore t c.val).mq = k.mq ++ [{ o := originOf (siteFor s c (.slot n) r), op := op }] ∧
    (getCore t c.val).accs = k.accs ++ [{ seq := k.nextSeq, uid := r.uid, ctx := r.ctx, ranges := rs, tier := 0, ch := 0 }] ∧
    (getCore t c.val).nextSeq = k.nextSeq + 1 ∧
    (bankOf (getCore t c.val) bank).vals = b.vals ∧ (bankOf (getCore t c.val) bank).order = b.order ∧
    (bankOf (getCore t c.val) bank).owner = (if b.order.isSome then b.owner else own) ∧
    (∀ m, m ≠ bank → bankOf (getCore t c.val) m = bankOf k m) ∧
    OnlyRun s (setCore t c.val { getCore t c.val with mq := k.mq, accs := k.accs, nextSeq := k.nextSeq, banks := k.banks }) c (.slot n)
      (pastWord r r.pc.toNat).1
  (∀ o, b.order = some o → r.tg = o.e → room → enters) ∧
  (∀ o, b.order = some o → r.tg ≠ o.e → (r.tg - o.b).toNat % o.s < o.l → 0 < (r.tg - o.e).toNat → (r.tg - o.e).toNat < 32768 →
    exec i s = .next (setCore s c.val (k.count 0x038 1))) ∧
  (∀ o, b.order = some o → r.tg ≠ o.e → ¬((r.tg - o.b).toNat % o.s < o.l ∧ 0 < (r.tg - o.e).toNat ∧ (r.tg - o.e).toNat < 32768) →
    exec i s = .next (trapState s c (.slot n) r 0x0B 0)) ∧
  (b.order = none → (b.owner = none ∨ b.owner = some r.uid) → room → enters) ∧
  (∀ u, b.order = none → b.owner = some u → u ≠ r.uid → exec i s = .next s) ∧
  (b.order = none → b.owner = none → ¬ room → exec i s = .next s)

/-- The vector queue takes an instruction of firing `r`, or the instruction waits for room (R67, R96). -/
def VectorRule (s : State) (c : CoreIx) (n : Fin 8) (r : Run) (i : Instr) (rs : List (Nat × Nat)) (op : VxOp) : Prop :=
  let k := getCore s c.val
  (k.vq.length < 4 → k.accs.length < 32 → ∃ t, exec i s = .next t ∧
    (getCore t c.val).vq = k.vq ++ [{ o := originOf (siteFor s c (.slot n) r), op := op }] ∧
    (getCore t c.val).accs = k.accs ++ [{ seq := k.nextSeq, uid := r.uid, ctx := r.ctx, ranges := rs, tier := 0, ch := 0 }] ∧
    (getCore t c.val).nextSeq = k.nextSeq + 1 ∧
    OnlyRun s (setCore t c.val { getCore t c.val with vq := k.vq, accs := k.accs, nextSeq := k.nextSeq }) c (.slot n) (pastWord r r.pc.toNat).1) ∧
  (4 ≤ k.vq.length ∨ 32 ≤ k.accs.length → exec i s = .next s)

/-- The bytes of an element at `a` and of one of `sz` bytes at `b` do not meet. -/
abbrev Apart (a : Int) (sa : Nat) (b : Int) (sb : Nat) : Prop := a.toNat + sa ≤ b.toNat ∨ b.toNat + sb ≤ a.toNat

/-- R151: what a drain makes of the bank's position (m0 + i, n): its word and the flags raised. -/
def drainElem (k : Core) (b ofmt epi : Nat) (e : Option View) (u : Nat → Nat) (m0 i n : Nat) : Word × Fl :=
  let v := bankVal (bankOf k b) (m0 + i) n
  let w : Word × Fl := match e with
    | none => (v, {})
    | some ev =>
      let x := widen (dFmt ev.d == 1) (vAt k.sram ev [(n : Int), (i : Int)])
      let y := if epi = 1 then add32 v x.1 else mul32 v x.1
      (y.1, x.2.or y.2)
  let z := convert w.1 ofmt (u (32 * (m0 + i) + n))
  (z.1, w.2.or z.2)

/-- The elements of a region in row-major order with their element indices (R151). -/
def drainElems (k : Core) (b ofmt epi : Nat) (e : Option View) (u : Nat → Nat) (m0 rows cols : Nat) : List (Nat × Word × Fl) :=
  (List.range rows).flatMap (fun i => (List.range cols).map (fun n => (32 * (m0 + i) + n, drainElem k b ofmt epi e u m0 i n)))

/-- What an engine tells of the elements `els` that it has written or sent in format `fmt` (R160 to R163, R184): the sticky flags, the count of
NaN elements, one NaN report for the first of them, and on the gradient path one step-overflow report for an infinity or a NaN. -/
structure EngineTells (k k' : Core) (o : Origin) (vec : Bool) (fmt : Nat) (els : List (Nat × Word × Fl)) : Prop where
  inv : bit (coreReg k' 0x080) 0 = (bit (coreReg k 0x080) 0 || els.any (fun x => x.2.2.inv))
  ovf : bit (coreReg k' 0x080) 1 = (bit (coreReg k 0x080) 1 || els.any (fun x => x.2.2.ovf))
  flush : bit (coreReg k' 0x080) 2 = (bit (coreReg k 0x080) 2 || els.any (fun x => x.2.2.flush))
  nan : bit (coreReg k' 0x080) 3 = (bit (coreReg k 0x080) 3 || els.any (fun x => isNanFmt fmt x.2.1))
  inf : bit (coreReg k' 0x080) 4 = (bit (coreReg k 0x080) 4 || els.any (fun x => isInfFmt fmt x.2.1))
  count : coreReg k' 0x088 = coreReg k 0x088 + w32 (els.countP (fun x => isNanFmt fmt x.2.1))
  report : k'.reports = k.reports ++ (match els.find? (fun x => isNanFmt fmt x.2.1) with
    | some x => [{ part := o.part, uid := o.uid, slot := RunId.num o.run, ctx := o.ctx, pc := o.pc, tag := o.tag, vec := vec, elem := x.1, wait := k.halt }]
    | none => [])
  grad : k'.overflows = k.overflows ++
    (if els.any (fun x => isNanFmt fmt x.2.1 || isInfFmt fmt x.2.1) && bit (coreReg k 0x084) o.ctx then [(o.part, (ctxOf k o.ctx).step.setWidth 16)] else [])

/-- The random bits of the element with walk index `e` of what vector instruction `o` writes to `d` (R157). -/
def vxBits (k : Core) (o : Origin) (d : View) (e : Nat) : Nat :=
  srBits (ctxOf k o.ctx).seed (ctxOf k o.ctx).step (srC1 o.layer 2 0) o.tag.toNat d.p o.rank e

/-- The real positions of the walk of `d` with their walk indices (R93). -/
def walkAt (d : Desc) : List (Nat × Pos) := ((List.range (walk d).length).zip (walk d)).filter (fun x => x.2.real)

/-- The elements at the real positions of `d` lie apart from one another, and from the elements of `x` at other positions: an input is read
before it is written wherever the tiles end (R169). -/
def WritesApart (d : View) (xs : List View) : Prop :=
  ∀ p ∈ walkReal d.d, ∀ q ∈ walkReal d.d, p.i ≠ q.i →
    Apart (vAddr d p.i) (dSize d.d) (vAddr d q.i) (dSize d.d) ∧ ∀ x ∈ xs, Apart (vAddr d p.i) (dSize d.d) (vAddr x q.i) (dSize x.d)

/-- No element at a real position of `d` meets one at a real position of `x`. -/
def FarFrom (d x : View) : Prop := ∀ p ∈ walkReal d.d, ∀ q ∈ walkReal x.d, Apart (vAddr d p.i) (dSize d.d) (vAddr x q.i) (dSize x.d)

/-- Data SRAM of `k` holds word `w` at position `p` of `d`. -/
abbrev Holds (k : Core) (d : View) (p : Pos) (w : Word) : Prop := mreads k.sram (vAddr d p.i).toNat (dSize d.d) = leBytes (dSize d.d) w.toNat

/-- A vector instruction has run: it has left the queue and the access table, and has changed no byte of data SRAM but those of the elements
at the real positions of `d`'s walk. -/
structure VectorDone (s t : State) (c : CoreIx) (q : VxItem) (qs : List VxItem) (d : View) : Prop where
  outside : OnlyCore s t c.val
  queue : (getCore t c.val).vq = qs
  accs : (getCore t c.val).accs = (getCore s c.val).accs.filter (fun a => a.seq != q.o.seq)
  bytes : ∀ a, (∀ p ∈ walkReal d.d, ¬((vAddr d p.i).toNat ≤ a ∧ a < (vAddr d p.i).toNat + dSize d.d)) →
    mread (getCore t c.val).sram a = mread (getCore s c.val).sram a
  banks : (getCore t c.val).banks = (getCore s c.val).banks
  stores : (getCore t c.val).stores = (getCore s c.val).stores
  outs : (getCore t c.val).outs = (getCore s c.val).outs

/-- A run that waited for a sync answer has gone on: it issues again, at the word after its instruction. -/
def Resumed (s t : State) (c : CoreIx) (id : RunId) (r : Run) : Prop :=
  (∃ r', runOf (getCore t c.val) id = some r' ∧ r'.phase = .issuing ∧ r'.pc = (pastWord r r.pc.toNat).1.pc ∧
    r'.loops = (pastWord r r.pc.toNat).1.loops ∧ r'.tg = r.tg ∧ r'.held = r.held) ∧
  (∀ a, mread (getCore t c.val).sram a = mread (getCore s c.val).sram a) ∧ (getCore t c.val).banks = (getCore s c.val).banks ∧
  (∀ d, d ≠ c.val → getCore t d = getCore s d)

/-! ### Synchronisation objects -/

/-- At unit `u` one request waits, `q`, which may take effect: it holds the object's partition, is behind no roller store of its run, and
the object is no proxy. -/
abbrev OneRequest (s : State) (u : SyncUnit) (q : SyncReq) : Prop :=
  (unitSync s u).held = [] ∧ (unitSync s u).arrived = [q] ∧ objUnit q.obj = u ∧ storesPending s q = false ∧
    objRefusal s q.pid q.obj = none ∧ cfgMode (objCfg s q.obj) = 0

/-- The packet that carries an answer of request `q` over the mesh to core `c`. -/
def answerPacket (c uid : Nat) (q : SyncReq) (a : Answer) : Packet :=
  { pid := q.pid, src := unitNode (objUnit q.obj), dst := .core c, tid := q.tid, body := .syncRsp (.core c uid) q.op q.tid a }

/-- Core `c` has the answer of request `q` beside those it had, where the object is a hive's of its own cluster; else the answer is on its way
over the mesh (R260). none: no answer. -/
def Answered (s t : State) (c uid : Nat) (q : SyncReq) (a : Option Answer) : Prop :=
  (q.near = true → (getCore t c).syncRsps = (getCore s c).syncRsps ++ (match a with | some x => [{ uid := uid, op := q.op, tid := q.tid, ans := x }] | none => []) ∧ t.mesh = s.mesh) ∧
  (q.near = false → (getCore t c).syncRsps = (getCore s c).syncRsps ∧ t.mesh = s.mesh ++ (match a with | some x => [answerPacket c uid q x] | none => [])) ∧
    (∀ d, d ≠ c → getCore t d = getCore s d) ∧ { getCore t c with syncRsps := [] } = { getCore s c with syncRsps := [] }

/-- Unit `u` has taken request `q`: no request waits there, its waiters are `ws`, and no object but that of `q` has another value. -/
def SyncTook (s t : State) (u : SyncUnit) (q : SyncReq) (ws : List Waiter) : Prop :=
  (unitSync t u).arrived = [] ∧ (unitSync t u).held = [] ∧ (unitSync t u).waiters = ws ∧ (∀ o, o ≠ q.obj → objVal t o = objVal s o)

/-- No sync operation of the host-class core that `fn` may be waits at unit `u` or is on its way (R139): its register accesses overtake none. -/
abbrev NoOwnSyncs (s : State) (u : SyncUnit) (fn : Fn) : Prop :=
  ∀ h, fn = .hcc h → (∀ q ∈ (unitSync s u).arrived, q.src ≠ .hcc h.val) ∧ (∀ p ∈ s.mesh, ∀ q, p.body = .sync q → q.src ≠ .hcc h.val)

/-- A waiter of a core has its answer at the core, or it is on its way (R260). -/
def WaiterAnswered (t : State) (w : Waiter) (a : Answer) : Prop :=
  ∀ c uid, w.q.src = .core c uid → (w.q.near = true → ∃ x ∈ (getCore t c).syncRsps, x.uid = uid ∧ x.tid = w.q.tid ∧ x.ans = a) ∧
    (w.q.near = false → answerPacket c uid w.q a ∈ t.mesh)

/-- The value of object `o` has become `v` (R255): of its waiters those whose condition `v` satisfies, and those of an earlier barrier generation, are
gone and answered 1; every other waiter of the unit stays, in its order. -/
def Released (s t : State) (o : ObjRef) (v : Word) : Prop :=
  let u := objUnit o
  let go := fun (w : Waiter) => w.q.obj = o ∧ (w.q.op = .wait ∧ (if w.q.cond = 0 then v = w.q.arg else if w.q.cond = 1 then v ≠ w.q.arg
      else if w.q.cond = 2 then w.q.arg.toNat ≤ v.toNat else v.toNat < w.q.arg.toNat) ∨ w.q.op = .bar ∧ v.toNat / 65536 ≠ w.gen)
  (∀ w ∈ (unitSync t u).waiters, ¬ go w) ∧ (unitSync t u).waiters.Sublist (unitSync s u).waiters ∧
    (∀ w ∈ (unitSync s u).waiters, ¬ go w → w ∈ (unitSync t u).waiters) ∧ (∀ w ∈ (unitSync s u).waiters, go w → WaiterAnswered t w (.val 1))

/-- Object `o` has been disabled (R254): no waiter and no held request of it is left, and each waiter is answered NOT_MAPPED. -/
def Dismissed (s t : State) (o : ObjRef) : Prop :=
  (∀ w ∈ (unitSync t (objUnit o)).waiters, w.q.obj ≠ o) ∧ (∀ q ∈ (unitSync t (objUnit o)).held, q.obj ≠ o) ∧
    ∀ w ∈ (unitSync s (objUnit o)).waiters, w.q.obj = o → WaiterAnswered t w (.refused 3)

/-! ### Writes of registers -/

/-- The state but for the counters of the die-to-die interfaces (R398), which an access that crosses one moves. -/
def noDd (s : State) : State := { s with hub := { s.hub with regs := s.hub.regs.filter (fun e => e.1 < 0x1000000) } }

/-- A register write of function `fn` at unit `dst` carries PID `pid` and nothing stops it: the function is served, not held, the unit is not stopped in
standby, and the unit's check passes (R140, R298, R326, R378). -/
abbrev Admits (s : State) (fn : Fn) (dst : Node) (check : Nat → Option Nat) (pid : Nat) : Prop :=
  fnLive s fn = true ∧ fnHeld s fn = false ∧ stopped s dst = false ∧ fnPid s fn = some pid ∧ check pid = none

/-- A write of a register of partition `p`'s block is admitted (R140, R297, R298). -/
abbrev PartAdmits (s : State) (fn : Fn) (p : PartIx) (pid : Nat) : Prop := Admits s fn (.hub 2) (fun q => ownCheck s q p.val true false) pid

/-- A write of a register of the hub die is admitted: only the physical function's is (R140). -/
abbrev HubAdmits (s : State) (fn : Fn) : Prop := Admits s fn (.hub 0) (fun pid => if pid = 0xF then none else some OWNER_MISMATCH) 0xF

/-- From `s` to `t` nothing changes but registers `ks` of partition `p`'s block. -/
structure PartRegs (s t : State) (p : Nat) (ks : List Nat) : Prop where
  rest : { t with parts := [] } = { s with parts := [] }
  others : ∀ d, d ≠ p → getPart t d = getPart s d
  part : { getPart t p with regs := [] } = { getPart s p with regs := [] }
  regs : ∀ o, o ∉ ks → partReg (getPart t p) o = partReg (getPart s p) o

/-- From `s` to `t` nothing changes but registers `ks` of memory controller `m`. -/
structure McRegs (s t : State) (m : Nat) (ks : List Nat) : Prop where
  rest : { noDd t with mcs := [] } = { noDd s with mcs := [] }
  others : ∀ d, d ≠ m → getMc t d = getMc s d
  mc : { getMc t m with regs := [] } = { getMc s m with regs := [] }
  regs : ∀ o, o ∉ ks → mcReg (getMc t m) o = mcReg (getMc s m) o

/-- From `s` to `t` nothing changes but registers `ks` of link port `l`. -/
structure LnkRegs (s t : State) (l : Nat) (ks : List Nat) : Prop where
  rest : { noDd t with lnks := [] } = { noDd s with lnks := [] }
  others : ∀ d, d ≠ l → getLnk t d = getLnk s d
  lnk : { getLnk t l with regs := [] } = { getLnk s l with regs := [] }
  regs : ∀ o, o ∉ ks → lnkReg (getLnk t l) o = lnkReg (getLnk s l) o

/-- From `s` to `t` nothing changes but registers `ks` of cluster `c`. -/
structure ClRegs (s t : State) (c : Nat) (ks : List Nat) : Prop where
  rest : { noDd t with clusters := [] } = { noDd s with clusters := [] }
  others : ∀ d, d ≠ c → getCl t d = getCl s d
  cl : { getCl t c with regs := [] } = { getCl s c with regs := [] }
  regs : ∀ o, o ∉ ks → clReg (getCl t c) o = clReg (getCl s c) o

/-- From `s` to `t` nothing changes but registers `ks` of the hub die. -/
structure HubRegs (s t : State) (ks : List Nat) : Prop where
  rest : { t with hub := { t.hub with regs := [] } } = { s with hub := { s.hub with regs := [] } }
  regs : ∀ o, o ∉ ks → hubReg t.hub o = hubReg s.hub o

/-! ### Faults -/

/-- The hub's fault registers have taken an event (R339, R340): the first is logged, later ones are counted, and FAULT stands. -/
structure HubFaulted (s t : State) (kind unit pids : Nat) (loss uncovered worsen : Bool) : Prop where
  first : bit (hubReg s.hub 0x20) 31 = false → fld (hubReg t.hub 0x20) 7 0 = kind ∧ bit (hubReg t.hub 0x20) 8 = loss ∧ bit (hubReg t.hub 0x20) 9 = uncovered ∧
    bit (hubReg t.hub 0x20) 10 = worsen ∧ bit (hubReg t.hub 0x20) 31 = true ∧ fld (hubReg t.hub 0x24) 15 0 = unit ∧ fld (hubReg t.hub 0x24) 23 16 = pids ∧
    hubReg t.hub 0x28 = hubReg s.hub 0x28
  later : bit (hubReg s.hub 0x20) 31 = true → hubReg t.hub 0x20 = hubReg s.hub 0x20 ∧ hubReg t.hub 0x24 = hubReg s.hub 0x24 ∧
    (hubReg t.hub 0x28).toNat = satAdd 0xFFFFFFFF (hubReg s.hub 0x28).toNat 1
  cause : bit (hubReg t.hub 0x10) 0 = true

/-- Partition `p` has taken an event in PART_FAULT and PART_FAULT_CNT. -/
def PartFaulted (s t : State) (p kind unit : Nat) (uncovered : Bool) : Prop :=
  fld (partReg (getPart t p) 0x1A0) 15 8 = kind ∧ fld (partReg (getPart t p) 0x1A0) 31 16 = unit ∧
    bit (partReg (getPart t p) 0x1A0) 1 = (bit (partReg (getPart s p) 0x1A0) 1 || uncovered) ∧
    (partReg (getPart t p) 0x1A4).toNat = satAdd 0xFFFFFFFF (partReg (getPart s p) 0x1A4).toNat 1

/-- A remap has been entered in the log of every partition that exists (R345), and in that of no other. -/
def Remapped (s t : State) : Prop :=
  ∀ p, p < 8 → (partState s p ≠ ABSENT → (getPart t p).logCount = (getPart s p).logCount + 1 ∧ bit (partReg (getPart t p) 0x10) 8 = true) ∧
    (partState s p = ABSENT → (getPart t p).logCount = (getPart s p).logCount)

/-- A molt of `u` has completed (R344, R345): it waits no longer, DONE counts it, the hub has logged it, and so have the partitions. -/
structure MoltDone (s t : State) (u : FaultUnit) : Prop where
  gone : u ∉ t.hub.molts
  others : ∀ v, v ≠ u → (v ∈ t.hub.molts ↔ v ∈ s.hub.molts)
  done : fld (hubReg t.hub 0x30) 15 8 = (fld (hubReg s.hub 0x30) 15 8 + 1) % 256
  logged : HubFaulted s t (moltKind u) (unitCode u) 0 false false true
  cause : bit (hubReg t.hub 0x10) 5 = true

end Sys2Proof
end

