-- ==== Sys2Proof/Certificates/Slice0/Obligations.lean ====
section
/-! DEFINITION. The statements for the provers. -/
open Sys2Proof Sys2Proof.Machine

/-- Block rule: a step runs the command at the front of the queue on the state with the rest of the queue. -/
def Obligations.StepRunsFrontCommand : Prop :=
  ∀ (c : Instr) (r : List Instr) (s : State), step { s with pending := c :: r } = exec c { s with pending := r }

/-- R165, R294, R322, R368, R369, R371, R393, R400: the state right after reset. The registers that the spec gives a reset value hold it: HUB_ID, HUB_NODE, the cap, the alert threshold, the shortest cycle, SNAP_STAT.DONE, a partition's weight, securing interval and stall-sample interval, a link port's lanes; READY is 0, every partition is ABSENT, nothing is enabled. No
command waits, and every memory is in its canonical form. That a register to which the spec gives no reset value holds 0 is the model's choice (log 4, log 7) and no part of this statement. -/
def Obligations.ResetValues : Prop :=
  let s := State.reset
  hubReg s.hub 0x0 = 0x00014E01 ∧ hubReg s.hub 0x4 = 0 ∧ hubReg s.hub 0x8 = 0xFFFF ∧ hubReg s.hub 0x10 = 0 ∧ hubReg s.hub 0x14 = 0 ∧ hubReg s.hub 0x20 = 0 ∧ hubReg s.hub 0x30 = 0 ∧ hubReg s.hub 0x34 = 0 ∧
    hubReg s.hub 0x1000 = 0 ∧ hubReg s.hub 0x1008 = 0xA28 ∧ hubReg s.hub 0x1020 = 0x64 ∧ hubReg s.hub 0x1028 = 0x3B6 ∧ hubReg s.hub 0x300004 = 0x10000 ∧
    (∀ p, partState s p = ABSENT ∧ partReg (getPart s p) 0x14 = 0 ∧ partReg (getPart s p) 0x1C = 0 ∧ partReg (getPart s p) 0x24 = 1 ∧ partReg (getPart s p) 0x28 = 0 ∧ partReg (getPart s p) 0x40 = 0 ∧
      partReg (getPart s p) 0x114 = 0 ∧ partReg (getPart s p) 0x1E4 = 1 ∧ partReg (getPart s p) 0x2008 = 0x10000 ∧ ∀ e, bit (entWord (getPart s p) e 0) 0 = false) ∧
    (∀ l, lnkOn (getLnk s l) = false ∧ lst (getLnk s l) = 0 ∧ fld (lnkReg (getLnk s l) 0x8) 6 4 = 7) ∧ (∀ m, stnOn (getMc s m) = false) ∧ ready s = false ∧ s.pending = [] ∧ MemOk s

/-- R69: add, sub, mul, mulh, mulhu, addi, muli: their results modulo 2^32, and that nothing else changes.

R69: and, or, xor, shl, shr, sra and their immediate forms; shift amounts are the low 5 bits of the operand.

R69, R70: min, max, minu, maxu, sel, li, and mfs of every special register but CYCLES; of CYCLES only that it runs.

R69: the comparisons and `tag.yng` (R35) write p[pd], and nothing else.

R69, R70: pand, por, pxor, pnot; a write to p0 is discarded and p0 reads 1. -/
def Obligations.ScalarResults : Prop :=
  (ComputesA .add (fun a b => w32 (a.toNat + b.toNat)) ∧ ComputesA .sub (fun a b => BitVec.ofInt 32 (a.toInt - b.toInt)) ∧
   ComputesA .mul (fun a b => w32 (a.toNat * b.toNat)) ∧ ComputesA .mulh (fun a b => BitVec.ofInt 32 ((a.toInt * b.toInt) / 2 ^ 32)) ∧
   ComputesA .mulhu (fun a b => w32 (a.toNat * b.toNat / 2 ^ 32)) ∧
   ComputesB .addi (fun a b => BitVec.ofInt 32 (a.toInt + b.toInt)) ∧ ComputesB .muli (fun a b => BitVec.ofInt 32 (a.toInt * b.toInt))) ∧
  (ComputesA .and_ (fun a b => a &&& b) ∧ ComputesA .or_ (fun a b => a ||| b) ∧ ComputesA .xor (fun a b => a ^^^ b) ∧
   ComputesA .shl (fun a b => w32 (a.toNat * 2 ^ (b.toNat % 32))) ∧ ComputesA .shr (fun a b => w32 (a.toNat / 2 ^ (b.toNat % 32))) ∧
   ComputesA .sra (fun a b => BitVec.ofInt 32 (a.toInt / 2 ^ (b.toNat % 32))) ∧
   ComputesB .andi (fun a b => a &&& b) ∧ ComputesB .ori (fun a b => a ||| b) ∧ ComputesB .xori (fun a b => a ^^^ b) ∧
   ComputesB .shli (fun a b => w32 (a.toNat * 2 ^ (b.toNat % 32))) ∧ ComputesB .shri (fun a b => w32 (a.toNat / 2 ^ (b.toNat % 32))) ∧
   ComputesB .srai (fun a b => BitVec.ofInt 32 (a.toInt / 2 ^ (b.toNat % 32)))) ∧
  (ComputesA .min (fun a b => BitVec.ofInt 32 (min a.toInt b.toInt)) ∧ ComputesA .max (fun a b => BitVec.ofInt 32 (max a.toInt b.toInt)) ∧
   ComputesA .minu (fun a b => w32 (min a.toNat b.toNat)) ∧ ComputesA .maxu (fun a b => w32 (max a.toNat b.toNat)) ∧
   (∀ (s : State) (c : CoreIx) (id : RunId) (r : Run) (f : FmtA),
     Ready s c id r f.g [f.rd, f.rs1, f.rs2] → f.rsv = 0 → MayWrite id f.rd → HasNext r →
     ∃ t, exec (.sel c id f) s = .next t ∧
       WroteS s t c id r f.rd (if readP s c id f.pd then readS s c id f.rs1 else readS s c id f.rs2)) ∧
   (∀ (s : State) (c : CoreIx) (id : RunId) (r : Run) (f : FmtB),
     Ready s c id r f.g [f.rd] → f.rsv = 0 → f.pd = 0 → f.rs1 = 0 → MayWrite id f.rd → HasNext r →
     ∃ t, exec (.li c id f) s = .next t ∧ WroteS s t c id r f.rd f.imm) ∧
   (∀ (s : State) (c : CoreIx) (id : RunId) (r : Run) (f : FmtA),
     Ready s c id r f.g [f.rd] → f.rsv = 0 → f.pd = 0 → f.rs2 = 0 → f.rs1.toNat < 9 → MayWrite id f.rd → HasNext r →
     ∃ t, exec (.mfs c id f) s = .next t ∧
       (∀ n, n ≠ f.rd → readS t c id n = readS s c id n) ∧
       (f.rs1 ≠ 7 → WroteS s t c id r f.rd (
         let k := getCore s c.val
         let x := ctxOf k k.active
         if f.rs1 = 0 then w32 x.rank else if f.rs1 = 1 then w32 x.ncores else if f.rs1 = 2 then w32 c.val
         else if f.rs1 = 3 then w32 (placeCore c.val) else if f.rs1 = 4 then w32 k.active else if f.rs1 = 5 then w32 x.window
         else if f.rs1 = 6 then w32 (ctxPart x) else w32 k.firings.length)))) ∧
  (ComparesA .cmpEq (fun a b => a.toNat = b.toNat) ∧ ComparesA .cmpNe (fun a b => a.toNat ≠ b.toNat) ∧
   ComparesA .cmpLt (fun a b => a.toInt < b.toInt) ∧ ComparesA .cmpLtu (fun a b => a.toNat < b.toNat) ∧
   ComparesA .cmpGe (fun a b => a.toInt ≥ b.toInt) ∧ ComparesA .cmpGeu (fun a b => a.toNat ≥ b.toNat) ∧
   ComparesA .tagYng (fun a b => 1 ≤ (a.toNat % 65536 + 65536 - b.toNat % 65536) % 65536 ∧
     (a.toNat % 65536 + 65536 - b.toNat % 65536) % 65536 ≤ 32767) ∧
   ComparesB .cmpiEq (fun a b => a.toNat = b.toNat) ∧ ComparesB .cmpiNe (fun a b => a.toNat ≠ b.toNat) ∧
   ComparesB .cmpiLt (fun a b => a.toInt < b.toInt) ∧ ComparesB .cmpiLtu (fun a b => a.toNat < b.toNat) ∧
   ComparesB .cmpiGe (fun a b => a.toInt ≥ b.toInt) ∧ ComparesB .cmpiGeu (fun a b => a.toNat ≥ b.toNat)) ∧
  (ComputesP .pand false (fun a b => a && b) ∧ ComputesP .por false (fun a b => a || b) ∧
   ComputesP .pxor false (fun a b => xor a b) ∧ ComputesP .pnot true (fun a _ => !a) ∧
   (∀ (s : State) (c : CoreIx) (id : RunId) (r : Run), runOf (getCore s c.val) id = some r → readP s c id 0 = true))

/-- R57, R68, R70: a firing that writes s24 to s31 raises STATE, whatever it computes.

R60, R61, R89, R164: what stands before the effect of every Wofer instruction. A run that cannot issue changes nothing; a due NaN
trap is raised first; a reserved field or the reserved guard raises ILLEGAL, whether the guard holds or not; a false guard has no effect
but that the run goes on to the next word, unless a field check raises ILLEGAL. -/
def Obligations.IssueRules : Prop :=
  (∀ (s : State) (c : CoreIx) (n : Fin 8) (r : Run) (rd : BitVec 5), 24 ≤ rd.toNat →
     (∀ (f : FmtA) (i : Instr), f.rd = rd → f.rsv = 0 → f.pd = 0 → Ready s c (.slot n) r f.g [f.rd, f.rs1, f.rs2] →
       i ∈ [.add c (.slot n) f, .sub c (.slot n) f, .and_ c (.slot n) f, .or_ c (.slot n) f, .xor c (.slot n) f, .shl c (.slot n) f,
         .shr c (.slot n) f, .sra c (.slot n) f, .mul c (.slot n) f, .mulh c (.slot n) f, .mulhu c (.slot n) f, .min c (.slot n) f,
         .max c (.slot n) f, .minu c (.slot n) f, .maxu c (.slot n) f, .sel c (.slot n) f] →
       exec i s = .next (trapState s c (.slot n) r 0x05 0)) ∧
     (∀ (f : FmtB) (i : Instr), f.rd = rd → f.rsv = 0 → f.pd = 0 → f.rs1 = 0 → Ready s c (.slot n) r f.g [f.rd, f.rs1] →
       awaitsCount (getCore s c.val) r.uid [f.rd] = false →
       i ∈ [.addi c (.slot n) f, .andi c (.slot n) f, .ori c (.slot n) f, .xori c (.slot n) f, .shli c (.slot n) f, .shri c (.slot n) f,
         .srai c (.slot n) f, .muli c (.slot n) f, .li c (.slot n) f] →
       exec i s = .next (trapState s c (.slot n) r 0x05 0))) ∧
  (∀ (i : Instr) (s : State) (c : CoreIx) (id : RunId) (g : Guard), woferOf i = some (c, id, g) →
     (mayIssue s c.val id = none → exec i s = .next s) ∧
     (∀ r e, mayIssue s c.val id = some r → r.nan = some e → ∃ t, exec i s = .next t ∧
       fld (coreReg (getCore t c.val) 0x004) 0 0 = 1 ∧
       (bit (coreReg (getCore s c.val) 0x004) 0 = false →
         fld (coreReg (getCore t c.val) 0x008) 7 0 = 0x0E ∧ fld (coreReg (getCore t c.val) 0x00C) 31 16 = e.toNat)) ∧
     (∀ r, mayIssue s c.val id = some r → r.nan = none →
       (reservedSet i = true ∨ (g.gn = true ∧ g.gp = 0) ∨ wordUndefined (fetchWord (getCore s c.val) r) = true) → exec i s = .next (trapState s c id r 0x01 0)) ∧
     (∀ r, mayIssue s c.val id = some r → r.nan = none → guardOn g r = false → HasNext r →
       exec i s = .next (trapState s c id r 0x01 0) ∨ ∃ t, exec i s = .next t ∧ OnlyRun s t c id (pastWord r r.pc.toNat).1))

/-- R71: br, jal and jr: the new program counter, the loops that the branch leaves (R72), PC_RANGE for targets 0 and 1.

R72: where the run stands after an instruction that is no taken branch, by the loops it is in; R71: past word 511 it raises PC_RANGE.

R72: loop.i, loop.r and brk. -/
def Obligations.ControlFlow : Prop :=
  (∀ (s : State) (c : CoreIx) (id : RunId) (r : Run) (f : FmtC), f.rsv = 0 → f.imm = 0 →
     (f.r1 = 0 → Ready s c id r f.g [] →
       (2 ≤ f.target.toNat → ∃ t, exec (.br c id f) s = .next t ∧ OnlyRun s t c id (jumped r f.target)) ∧
       (f.target.toNat < 2 → exec (.br c id f) s = .next (trapState s c id r 0x04 0))) ∧
     (Ready s c id r f.g [f.r1] → MayWrite id f.r1 →
       (2 ≤ f.target.toNat → ∃ t, exec (.jal c id f) s = .next t ∧
         WroteSTo s t c id (jumped r f.target) f.r1 (w32 (r.pc.toNat + 1)))) ∧
     (Ready s c id r f.g [f.r1] → (f.target.toNat < 2 → exec (.jal c id f) s = .next (trapState s c id r 0x04 0)) ∧
       (2 ≤ f.target.toNat → ¬ MayWrite id f.r1 → exec (.jal c id f) s = .next (trapState s c id r 0x05 0))) ∧
     (f.target = 0 → Ready s c id r f.g [f.r1] →
       (2 ≤ (readS s c id f.r1).toNat → (readS s c id f.r1).toNat < 512 → ∃ t, exec (.jr c id f) s = .next t ∧
         OnlyRun s t c id (jumped r ((readS s c id f.r1).setWidth 9))) ∧
       ((readS s c id f.r1).toNat < 2 ∨ 512 ≤ (readS s c id f.r1).toNat → exec (.jr c id f) s = .next (trapState s c id r 0x04 0)))) ∧
  (∀ (s : State) (c : CoreIx) (id : RunId) (r : Run) (f : FmtJ), Ready s c id r f.g [] → f.rsv = 0 → f.imm = 0 →
     (r.loops = [] → r.pc.toNat < 511 → ∃ t, exec (.nop c id f) s = .next t ∧ OnlyRun s t c id { r with pc := r.pc + 1 }) ∧
     (∀ l ls, r.loops = l :: ls → l.last ≠ r.pc → r.pc.toNat < 511 →
       ∃ t, exec (.nop c id f) s = .next t ∧ OnlyRun s t c id { r with pc := r.pc + 1 }) ∧
     (∀ l ls, r.loops = l :: ls → l.last = r.pc → 2 ≤ l.left →
       ∃ t, exec (.nop c id f) s = .next t ∧
         OnlyRun s t c id { r with loops := { l with left := l.left - 1 } :: ls, pc := l.start }) ∧
     (∀ l m ls, r.loops = l :: m :: ls → l.last = r.pc → l.left ≤ 1 → m.last = r.pc → 2 ≤ m.left →
       ∃ t, exec (.nop c id f) s = .next t ∧
         OnlyRun s t c id { r with loops := { m with left := m.left - 1 } :: ls, pc := m.start }) ∧
     (∀ l, r.loops = [l] → l.last = r.pc → l.left ≤ 1 → r.pc.toNat < 511 →
       ∃ t, exec (.nop c id f) s = .next t ∧ OnlyRun s t c id { r with loops := [], pc := r.pc + 1 }) ∧
     ((∀ l ∈ r.loops, l.last = r.pc → l.left ≤ 1) → r.pc = 511 → ∃ t, exec (.nop c id f) s = .next t ∧ bit (coreReg (getCore t c.val) 0x004) 0 = true ∧
       (bit (coreReg (getCore s c.val) 0x004) 0 = false → fld (coreReg (getCore t c.val) 0x008) 7 0 = 0x04))) ∧
  ((∀ (s : State) (c : CoreIx) (id : RunId) (r : Run) (f : FmtC), f.rsv = 0 → f.r1 = 0 → Ready s c id r f.g [] →
     LoopRule s c id r (.loopI c id f) f.target f.imm.toNat) ∧
   (∀ (s : State) (c : CoreIx) (id : RunId) (r : Run) (f : FmtC), f.rsv = 0 → f.imm = 0 → Ready s c id r f.g [f.r1] →
     LoopRule s c id r (.loopR c id f) f.target (readS s c id f.r1).toNat) ∧
   (∀ (s : State) (c : CoreIx) (id : RunId) (r : Run) (f : FmtC), f.rsv = 0 → f.r1 = 0 → f.imm = 0 → f.target = 0 → Ready s c id r f.g [] →
     (r.loops = [] → exec (.brk c id f) s = .next (trapState s c id r 0x01 0)) ∧
     (∀ l ls, r.loops = l :: ls → l.last.toNat < 511 →
       ∃ t, exec (.brk c id f) s = .next t ∧ OnlyRun s t c id { r with loops := ls, pc := l.last + 1 })))

/-- R73: the five local loads, their extension and their frame.

R73: the three local stores: the bytes stored, every other byte and everything else as before.

R73: ALIGN and SRAM_RANGE of local accesses; R95: they wait behind an outstanding access that overlaps. -/
def Obligations.LocalMemory : Prop :=
  (LoadsD .ldLW 4 (fun n => w32 n) ∧ LoadsD .ldLH 2 (fun n => w32 n) ∧ LoadsD .ldLB 1 (fun n => w32 n) ∧
   LoadsD .ldLHs 2 (fun n => BitVec.ofInt 32 (if n < 2 ^ 15 then (n : Int) else (n : Int) - 2 ^ 16)) ∧
   LoadsD .ldLBs 1 (fun n => BitVec.ofInt 32 (if n < 2 ^ 7 then (n : Int) else (n : Int) - 2 ^ 8))) ∧
  (StoresD .stLW 4 ∧ StoresD .stLH 2 ∧ StoresD .stLB 1) ∧
  (StopsD .ldLW 4 true ∧ StopsD .ldLH 2 true ∧ StopsD .ldLHs 2 true ∧ StopsD .ldLB 1 true ∧ StopsD .ldLBs 1 true ∧
   StopsD .stLW 4 false ∧ StopsD .stLH 2 false ∧ StopsD .stLB 1 false)

/-- R87, R401: nop does nothing; mark writes a trace marker with imm16, tg and the program counter where the trace is on.

R88, R89: trap raises SW with INFO = imm16, bkpt raises BKPT: the trap's entry. -/
def Obligations.NopMarkAndTraps : Prop :=
  (∀ (s : State) (c : CoreIx) (id : RunId) (r : Run) (f : FmtJ), Ready s c id r f.g [] → f.rsv = 0 → HasNext r →
     (f.imm = 0 → ∃ t, exec (.nop c id f) s = .next t ∧ OnlyRun s t c id (pastWord r r.pc.toNat).1) ∧
     ∃ t, exec (.mark c id f) s = .next t ∧
       OnlyRun s { t with clusters := s.clusters, parts := s.parts, free := s.free } c id (pastWord r r.pc.toNat).1 ∧
       let p := ctxPart (ctxOf (getCore s c.val) (getCore s c.val).active)
       (traceOn s p (c.val / 32) 1 = false → OnlyRun s t c id (pastWord r r.pc.toNat).1) ∧
       (traceOn s p (c.val / 32) 1 = true → (getCl s (c.val / 32)).trace.length < 16 → (getCl s (c.val / 32)).dropped = 0 →
         ∃ m, (getCl t (c.val / 32)).trace = (getCl s (c.val / 32)).trace ++ [m] ∧ m.part = p ∧ m.evt = 1 ∧ m.tag = r.tg ∧
           m.pc = r.pc.toNat ∧ m.info = f.imm.toNat ∧ m.place = placeCore c.val)) ∧
  (∀ (s : State) (c : CoreIx) (id : RunId) (r : Run) (f : FmtJ), Ready s c id r f.g [] → f.rsv = 0 →
     (∃ t, exec (.trap c id f) s = .next t ∧ TookTrap s t c id r 0x0F f.imm.toNat) ∧
     (f.imm = 0 → ∃ t, exec (.bkpt c id f) s = .next t ∧ TookTrap s t c id r 0x10 0))

/-- R77, R68, R81: taking a token. A payload that the firing holds is used and nothing changes; else the entry with the firing's tag leaves
the store of the port, the firing holds its payload, and the landing slot of a tile belongs to the firing; else the operation waits.

R38, R78: send and send.t put a token at the out port, with tg or, where T is 1, the low 16 bits of rs2; send.t reads the tile of the
port's shape from the frame at rs1.

R78, R67: what stops a send: PORT at an undeclared port or one of the wrong type (INFO with bit 3 set, R90), STATE in the setup run
with T = 0, a wait at a full port, which one stall counter counts (R126). That a port is full with one token is the model's choice (log 12).

R80: steer, steer.p, merge and merge.any move one token with tag tg from an in port to an out port; R81: the payloads are taken as by
recv, and merge.any raises MERGE_DUP where both inputs hold tg; that a payload which the firing holds already counts there is the model's
reading (log 79).

R85, R118: sec.send sends a section token on a control port, with tag tg or the low 16 bits of rs2. That SEQ is the low 16 bits of
rs2 where T is 1 is the model's reading (log 96). -/
def Obligations.TokenInstructions : Prop :=
  (∀ (s : State) (c : CoreIx) (n : Fin 8) (r : Run) (f : FmtE), Ready s c (.slot n) r f.g [f.rd] → f.rsv = 0 → f.rs1 = 0 → f.rs2 = 0 →
     f.t = false → f.mask = 0 → f.entry = 0 →
     (24 ≤ f.rd.toNat → exec (.recv c (.slot n) f) s = .next (trapState s c (.slot n) r 0x05 0)) ∧
     (f.rd.toNat < 24 → declType (getCore s c.val) r.ctx false f.port.toNat = 0 →
       exec (.recv c (.slot n) f) s = .next (trapState s c (.slot n) r 0x06 f.port.toNat)) ∧
     (f.rd.toNat < 24 → declType (getCore s c.val) r.ctx false f.port.toNat ≠ 0 →
       (∀ v, tfind r.held f.port.toNat = some v → HasNext r →
         ∃ t, exec (.recv c (.slot n) f) s = .next t ∧
           WroteS s t c (.slot n) r f.rd (match v with | .word w => w | .tile _ a _ _ => w32 a)) ∧
       (tfind r.held f.port.toNat = none →
         (∀ e ∈ tget (getCore s c.val).stores f.port.toNat [], ¬(e.ctx = r.ctx ∧ e.tag = r.tg)) →
         exec (.recv c (.slot n) f) s = .next s) ∧
       (∀ e, tfind r.held f.port.toNat = none → findEntry (getCore s c.val) f.port.toNat r.ctx r.tg = some e → HasNext r →
         ∃ t, exec (.recv c (.slot n) f) s = .next t ∧
           (∃ r', runOf (getCore t c.val) (.slot n) = some r' ∧ tfind r'.held f.port.toNat = some e.held) ∧
           readS t c (.slot n) f.rd = (match e.held with | .word w => w | .tile _ a _ _ => w32 a) ∧
           (tget (getCore t c.val).stores f.port.toNat []).length + 1 = (tget (getCore s c.val).stores f.port.toNat []).length ∧
           (∀ x, (tget (getCore t c.val).stores f.port.toNat []).count x + (if x = e then 1 else 0) =
             (tget (getCore s c.val).stores f.port.toNat []).count x) ∧
           (∀ m, m ≠ f.port.toNat → tget (getCore t c.val).stores m [] = tget (getCore s c.val).stores m []) ∧
           (∀ sl a rows cols g, e.held = .tile sl a rows cols → tfind (ctxOf (getCore s c.val) r.ctx).rings f.port.toNat = some g →
             tfind (ctxOf (getCore t c.val) r.ctx).rings f.port.toNat = some { g with slots := g.slots.set sl (.owned r.uid) }) ∧
           (∀ a, mread (getCore t c.val).sram a = mread (getCore s c.val).sram a) ∧ OnlyCore s t c.val))) ∧
  (∀ (s : State) (c : CoreIx) (id : RunId) (r : Run) (f : FmtE), Ready s c id r f.g [f.rs1, f.rs2] → f.rsv = 0 → f.rd = 0 →
     (f.t = false → f.rs2 = 0) → f.mask = 0 → f.entry = 0 → (id = .setup → f.t = true) → HasNext r →
     tfind (getCore s c.val).outs f.port.toNat = none →
     (declType (getCore s c.val) r.ctx true f.port.toNat = 1 ∨ declType (getCore s c.val) r.ctx true f.port.toNat = 3 →
       ∃ t, exec (.send c id f) s = .next t ∧
         SentTo s t c id r f.port.toNat
           { tag := if f.t then (readS s c id f.rs2).setWidth 16 else r.tg, ctx := r.ctx, body := .word (readS s c id f.rs1) }) ∧
     (let a := (readS s c id f.rs1).toNat
      let f32 := declF32 (getCore s c.val) r.ctx true f.port.toNat
      let sh := outShape s (ctxOf (getCore s c.val) (getCore s c.val).active) f.port.toNat
      declType (getCore s c.val) r.ctx true f.port.toNat = 2 → a % 128 = 0 → a + (if f32 then 4096 else 2048) ≤ 0x40000 →
      (getCore s c.val).accs.length < 32 → accBlock (getCore s c.val) (frameRanges f32 a sh.1 sh.2) = none →
       ∃ t, exec (.sendT c id f) s = .next t ∧
         SentTo s t c id r f.port.toNat
           { tag := if f.t then (readS s c id f.rs2).setWidth 16 else r.tg, ctx := r.ctx,
             body := .tile f32 sh.1 sh.2 (frameRead (getCore s c.val).sram f32 a sh.1 sh.2) })) ∧
  (∀ (s : State) (c : CoreIx) (id : RunId) (r : Run) (f : FmtE), Ready s c id r f.g [f.rs1, f.rs2] → f.rsv = 0 → f.rd = 0 →
     (f.t = false → f.rs2 = 0) → f.mask = 0 → f.entry = 0 →
     (id = .setup → f.t = false → exec (.send c id f) s = .next (trapState s c id r 0x05 0) ∧
       exec (.sendT c id f) s = .next (trapState s c id r 0x05 0)) ∧
     ((id = .setup → f.t = true) →
       (declType (getCore s c.val) r.ctx true f.port.toNat = 0 ∨ declType (getCore s c.val) r.ctx true f.port.toNat = 2 →
         exec (.send c id f) s = .next (trapState s c id r 0x06 (f.port.toNat + 8))) ∧
       (declType (getCore s c.val) r.ctx true f.port.toNat ≠ 2 →
         exec (.sendT c id f) s = .next (trapState s c id r 0x06 (f.port.toNat + 8))) ∧
       (declType (getCore s c.val) r.ctx true f.port.toNat = 1 → tfind (getCore s c.val).outs f.port.toNat ≠ none →
         exec (.send c id f) s = .next (setCore s c.val ((getCore s c.val).count 0x034 1))))) ∧
  (∀ (s : State) (c : CoreIx) (n : Fin 8) (r : Run) (f : FmtF), Ready s c (.slot n) r f.g [] → f.hi = 0 → f.rsv = 0 → HasNext r →
     let k := getCore s c.val
     let A := f.pa.toNat
     let B := f.pb.toNat
     let C := f.pc.toNat
     let D := f.pd.toNat
     (∀ k1 r1 v k2 r2 w, f.ps = 0 → steerFault k r.ctx [D] (some C) [A, B] = none → takeTok k r C = some (k1, r1, v) →
       takeTok k1 r1 D = some (k2, r2, w) → tfind k2.outs (if v.reg ≠ 0 then A else B) = none → r2.pc = r.pc →
       exec (.steer c (.slot n) f) s = .next (doneState s c (.slot n)
         (putOut k2 (if v.reg ≠ 0 then A else B) r2.uid { tag := r2.tg, ctx := r2.ctx, body := w.payload k2 (declF32 k2 r2.ctx false D) }) r2)) ∧
     (∀ k2 r2 w, f.pc = 0 → steerFault k r.ctx [D] none [A, B] = none → takeTok k r D = some (k2, r2, w) →
       tfind k2.outs (if readP s c (.slot n) f.ps then A else B) = none → r2.pc = r.pc →
       exec (.steerP c (.slot n) f) s = .next (doneState s c (.slot n)
         (putOut k2 (if readP s c (.slot n) f.ps then A else B) r2.uid { tag := r2.tg, ctx := r2.ctx, body := w.payload k2 (declF32 k2 r2.ctx false D) }) r2)) ∧
     (∀ k1 r1 v k2 r2 w, f.ps = 0 → steerFault k r.ctx [B, D] (some C) [A] = none → takeTok k r C = some (k1, r1, v) →
       takeTok k1 r1 (if v.reg ≠ 0 then B else D) = some (k2, r2, w) → tfind k2.outs A = none → r2.pc = r.pc →
       exec (.merge c (.slot n) f) s = .next (doneState s c (.slot n)
         (putOut k2 A r2.uid { tag := r2.tg, ctx := r2.ctx, body := w.payload k2 (declF32 k2 r2.ctx false (if v.reg ≠ 0 then B else D)) }) r2)) ∧
     (∀ k2 r2 w, f.ps = 0 → f.pc = 0 → steerFault k r.ctx [B, D] none [A] = none → hasTok k r B = true → hasTok k r D = false →
       takeTok k r B = some (k2, r2, w) → tfind k2.outs A = none → r2.pc = r.pc →
       exec (.mergeAny c (.slot n) f) s = .next (doneState s c (.slot n)
         (putOut k2 A r2.uid { tag := r2.tg, ctx := r2.ctx, body := w.payload k2 (declF32 k2 r2.ctx false B) }) r2)) ∧
     (f.ps = 0 → f.pc = 0 → steerFault k r.ctx [B, D] none [A] = none → hasTok k r B = true → hasTok k r D = true →
       exec (.mergeAny c (.slot n) f) s = .next (trapState s c (.slot n) r 0x08 0)) ∧
     (f.ps = 0 → f.pc = 0 → steerFault k r.ctx [B, D] none [A] = none → hasTok k r B = false → hasTok k r D = false →
       exec (.mergeAny c (.slot n) f) s = .next s)) ∧
  (∀ (s : State) (c : CoreIx) (id : RunId) (r : Run) (f : FmtH), Ready s c id r f.g [f.rs2] → f.rsv = 0 → f.mode ≠ 3 →
     (f.t = false → f.rs2 = 0) → (id = .setup → f.t = true) → HasNext r →
     (declType (getCore s c.val) r.ctx true f.port.toNat = 3 → tfind (getCore s c.val).outs f.port.toNat = none →
       ∃ t, exec (.secSend c id f) s = .next t ∧
         SentTo s t c id r f.port.toNat
           { tag := if f.t then (readS s c id f.rs2).setWidth 16 else r.tg, ctx := r.ctx,
             body := .sect f.mode.toNat f.ctx.toNat (if f.t then (readS s c id f.rs2).setWidth 16 else 0) }) ∧
     (declType (getCore s c.val) r.ctx true f.port.toNat ≠ 3 →
       exec (.secSend c id f) s = .next (trapState s c id r 0x06 (f.port.toNat + 8))))

/-- R75, R76, R79, R85, R100, R62, R63: the instructions of the setup run that declare: `match` with PORT and PC_RANGE, `port.land` with PORT, ALIGN and
SRAM_RANGE, `acc.seq` with BANK_SEQ, `acc.dflt`; a core whose mask is 0 never fires; and each of the four raises STATE in a firing. That a second
`port.land` on a port takes the place of its ring is the model's choice (log 141). -/
def Obligations.SetupDeclares : Prop :=
  (∀ (s : State) (c : CoreIx) (r : Run) (f : FmtE), Ready s c .setup r f.g [] → f.rsv = 0 → f.rd = 0 → f.rs1 = 0 → f.rs2 = 0 →
    f.t = false → f.port = 0 →
    let k := getCore s c.val
    let typ := fun n => declType k k.active false n
    let bad := ∃ n, n < 8 ∧ (f.mask.getLsbD n = true ∧ (typ n = 0 ∨ typ n = 3) ∨ typ n = 2 ∧ tfind (ctxOf k k.active).rings n = none)
    (bad → ∃ n, n < 8 ∧ exec (.match c .setup f) s = .next (trapState s c .setup r 0x06 n)) ∧
    (¬ bad → f.entry.toNat < 2 → exec (.match c .setup f) s = .next (trapState s c .setup r 0x04 0)) ∧
    (¬ bad → 2 ≤ f.entry.toNat → ∃ t, exec (.match c .setup f) s = .next t ∧ OnlyCore s t c.val ∧
      ctxOf (getCore t c.val) k.active = { ctxOf k k.active with mtch := some (f.mask, f.entry), setup := none } ∧
      (∀ x, x ≠ k.active → ctxOf (getCore t c.val) x = ctxOf k x) ∧ { getCore t c.val with regs := [], ctxs := [] } = { k with regs := [], ctxs := [] })) ∧
  (∀ (s : State) (c : CoreIx) e, (ctxOf (getCore s c.val) (getCore s c.val).active).mtch = some (0, e) → exec (.firingStart c) s = .next s) ∧
  (∀ (s : State) (c : CoreIx) (r : Run) (f : FmtE), Ready s c .setup r f.g [f.rs1, f.rs2] → f.rsv = 0 → f.rd = 0 → f.t = false → f.mask = 0 →
    f.entry = 0 → HasNext r → declType (getCore s c.val) (getCore s c.val).active false f.port.toNat = 2 →
    1 ≤ (readS s c .setup f.rs2).toNat → (readS s c .setup f.rs2).toNat ≤ 64 →
    let f32 := declF32 (getCore s c.val) (getCore s c.val).active false f.port.toNat
    let sz := if f32 then 4096 else 2048
    (readS s c .setup f.rs1).toNat % sz = 0 → (readS s c .setup f.rs1).toNat + (readS s c .setup f.rs2).toNat * sz ≤ 0x40000 →
    ∃ t, exec (.portLand c .setup f) s = .next t ∧ OnlyCore s t c.val ∧
      tfind (ctxOf (getCore t c.val) (getCore s c.val).active).rings f.port.toNat =
        some { base := (readS s c .setup f.rs1).toNat, f32 := f32, slots := List.replicate (readS s c .setup f.rs2).toNat .free } ∧
      (∀ m, m ≠ f.port.toNat → tfind (ctxOf (getCore t c.val) (getCore s c.val).active).rings m =
        tfind (ctxOf (getCore s c.val) (getCore s c.val).active).rings m) ∧
      { getCore t c.val with regs := [], ctxs := [] } = { getCore s c.val with regs := [], ctxs := [] }) ∧
  (∀ (s : State) (c : CoreIx) (r : Run) (f : FmtM), f.rsv = 0 → f.dA = 0 → f.dB = 0 → f.ca = false → f.cp = 0 → f.rp = 0 → HasNext r →
    (Ready s c .setup r f.g [f.ra, f.rb] →
      let b := readS s c .setup f.ra
      let q := readS s c .setup f.rb
      let good := 1 ≤ b.toNat / 65536 ∧ b.toNat / 65536 ≤ q.toNat ∧ q.toNat < 65536
      (good → ∃ t, exec (.accSeq c .setup f) s = .next t ∧
        SetBank s t c r f.bank.toNat { bankOf (getCore s c.val) f.bank.toNat with
          order := some { b := b.setWidth 16, l := b.toNat / 65536, s := q.toNat, e := b.setWidth 16, ctx := r.ctx } }) ∧
      (¬ good → exec (.accSeq c .setup f) s = .next (trapState s c .setup r 0x0B 0))) ∧
    (f.ra = 0 → f.rb = 0 → Ready s c .setup r f.g [] →
      ∃ t, exec (.accDflt c .setup f) s = .next t ∧
        SetBank s t c r f.bank.toNat { bankOf (getCore s c.val) f.bank.toNat with order := none })) ∧
  (∀ (s : State) (c : CoreIx) (n : Fin 8) (r : Run) (f : FmtE), f.rsv = 0 → f.rd = 0 → f.rs1 = 0 → f.rs2 = 0 → f.t = false → f.port = 0 →
    Ready s c (.slot n) r f.g [] → exec (.match c (.slot n) f) s = .next (trapState s c (.slot n) r 0x05 0)) ∧
  (∀ (s : State) (c : CoreIx) (r : Run) (f : FmtE), Ready s c .setup r f.g [f.rs1, f.rs2] → f.rsv = 0 → f.rd = 0 → f.t = false → f.mask = 0 →
    f.entry = 0 →
    let good := declType (getCore s c.val) (getCore s c.val).active false f.port.toNat = 2 ∧ 1 ≤ (readS s c .setup f.rs2).toNat ∧
      (readS s c .setup f.rs2).toNat ≤ 64
    let sz := if declF32 (getCore s c.val) (getCore s c.val).active false f.port.toNat then 4096 else 2048
    let base := (readS s c .setup f.rs1).toNat
    (¬ good → exec (.portLand c .setup f) s = .next (trapState s c .setup r 0x06 f.port.toNat)) ∧
    (good → base % sz ≠ 0 → exec (.portLand c .setup f) s = .next (trapState s c .setup r 0x02 0)) ∧
    (good → base % sz = 0 → 0x40000 < base + (readS s c .setup f.rs2).toNat * sz →
      exec (.portLand c .setup f) s = .next (trapState s c .setup r 0x03 0))) ∧
  (∀ (s : State) (c : CoreIx) (n : Fin 8) (r : Run) (f : FmtE), f.rsv = 0 → f.rd = 0 → f.t = false → f.mask = 0 → f.entry = 0 →
    Ready s c (.slot n) r f.g [f.rs1, f.rs2] → exec (.portLand c (.slot n) f) s = .next (trapState s c (.slot n) r 0x05 0)) ∧
  (∀ (s : State) (c : CoreIx) (n : Fin 8) (r : Run) (f : FmtM), f.rsv = 0 → f.dA = 0 → f.dB = 0 → f.ca = false → f.cp = 0 → f.rp = 0 →
    (Ready s c (.slot n) r f.g [f.ra, f.rb] → exec (.accSeq c (.slot n) f) s = .next (trapState s c (.slot n) r 0x05 0)) ∧
    (f.ra = 0 → f.rb = 0 → Ready s c (.slot n) r f.g [] → exec (.accDflt c (.slot n) f) s = .next (trapState s c (.slot n) r 0x05 0)))

/-- R79, R72, R85: fin ends the setup run or asks for the firing's retirement, ctx.sw asks for retirement and a switch; both empty the loop
stack, and the firing keeps its slot. -/
def Obligations.FinAndContextSwitch : Prop :=
  (∀ (s : State) (c : CoreIx) (id : RunId) (r : Run) (f : FmtE), Ready s c id r f.g [] → f.rsv = 0 → f.rd = 0 → f.rs1 = 0 → f.rs2 = 0 →
    f.t = false → f.port = 0 → f.mask = 0 → f.entry = 0 →
    (id ≠ .setup → ∃ t, exec (.fin c id f) s = .next t ∧ OnlyRun s t c id { r with phase := .fin, loops := [] }) ∧
    (id = .setup → ∃ t, exec (.fin c id f) s = .next t ∧ OnlyCore s t c.val ∧
      ctxOf (getCore t c.val) (getCore s c.val).active = { ctxOf (getCore s c.val) (getCore s c.val).active with setup := none } ∧
      { getCore t c.val with regs := [], ctxs := [] } = { getCore s c.val with regs := [], ctxs := [] })) ∧
  (∀ (s : State) (c : CoreIx) (id : RunId) (r : Run) (f : FmtH), Ready s c id r f.g [] → f.rsv = 0 → f.mode ≠ 3 → f.port = 0 → f.rs2 = 0 →
    f.t = false →
    (id ≠ .setup → ∃ t, exec (.ctxSw c id f) s = .next t ∧
      OnlyRun s t c id { r with phase := .ctxSw f.mode.toNat f.ctx.toNat, loops := [] }) ∧
    (id = .setup → exec (.ctxSw c id f) s = .next (trapState s c id r 0x05 0)))

/-- R82, R83, R256, R258: a sync operation with a well-formed name sends its request: to the hive of the core's own cluster directly, else into the
mesh. syn.st goes on; the others hold the run until the answer. A malformed name raises SYNC_NAME. -/
def Obligations.SyncIssues : Prop :=
  ∀ (s : State) (c : CoreIx) (id : RunId) (r : Run) (f : FmtG), f.rsv = 0 →
    (Ready s c id r f.g [f.rd, f.rs1, f.rs2] → f.pd = 0 → f.cond = 0 → f.timeout = 0 → MayWrite id f.rd →
      SyncRule s c id r (.synFaa c id f) .faa f.rd 0 (readS s c id f.rs1) (readS s c id f.rs2) 0 false) ∧
    (Ready s c id r f.g [f.rd, f.rs1] → f.rs2 = 0 → f.pd = 0 → f.cond = 0 → f.timeout = 0 → MayWrite id f.rd →
      SyncRule s c id r (.synLd c id f) .ld f.rd 0 (readS s c id f.rs1) 0 0 false) ∧
    (Ready s c id r f.g [f.rs1, f.rs2] → f.rd = 0 → f.pd = 0 → f.cond = 0 → f.timeout = 0 → HasNext r →
      SyncRule s c id r (.synSt c id f) .st 0 0 (readS s c id f.rs1) (readS s c id f.rs2) 0 false) ∧
    (Ready s c id r f.g [f.rs1, f.rs2] → f.rd = 0 → f.cond.toNat < 4 →
      SyncRule s c id r (.synWait c id f) .wait 0 f.pd (readS s c id f.rs1) (readS s c id f.rs2) f.cond (f.timeout != 0)) ∧
    (Ready s c id r f.g [f.rs1, f.rs2] → f.rd = 0 → f.cond = 0 → 1 ≤ (readS s c id f.rs2).toNat → (readS s c id f.rs2).toNat < 65536 →
      SyncRule s c id r (.synBar c id f) .bar 0 f.pd (readS s c id f.rs1) (readS s c id f.rs2) 0 (f.timeout != 0))

/-- R94, R110, R57: dsc.ld and dsc.wr write a descriptor register in the setup run and raise STATE in a firing; dsc.rd and dsc.tgx write a
scalar register. -/
def Obligations.DescriptorClass : Prop :=
  ∀ (s : State) (c : CoreIx) (id : RunId) (r : Run) (f : FmtQ), f.rsv = 0 →
    (let a := (readS s c id f.r1 + f.imm.signExtend 32).toNat
     let d : Desc := BitVec.ofNat 512 (sramNat s c a 64)
     Ready s c id r f.g [f.r1] → f.word = 0 → f.r2 = 0 →
      (id = .setup → a % 64 = 0 → a + 64 ≤ 0x40000 → accBlock (getCore s c.val) [(a, 64)] = none → dBad d = false → HasNext r →
        ∃ t, exec (.dscLd c id f) s = .next t ∧ SetDesc s t c r f.dN d) ∧
      (id = .setup → a % 64 = 0 → a + 64 ≤ 0x40000 → accBlock (getCore s c.val) [(a, 64)] = none → dBad d = true →
        exec (.dscLd c id f) s = .next (trapState s c id r 0x0D 0)) ∧
      (id = .setup → a % 64 ≠ 0 → exec (.dscLd c id f) s = .next (trapState s c id r 0x02 0)) ∧
      (id = .setup → a % 64 = 0 → a + 64 > 0x40000 → exec (.dscLd c id f) s = .next (trapState s c id r 0x03 0)) ∧
      (id ≠ .setup → exec (.dscLd c id f) s = .next (trapState s c id r 0x05 0))) ∧
    (let d := setFld (tget (ctxOf (getCore s c.val) (getCore s c.val).active).descs f.dN.toNat 0) (32 * f.word.toNat + 31) (32 * f.word.toNat)
        (readS s c id f.r2).toNat
     Ready s c id r f.g [f.r2] → f.r1 = 0 → f.imm = 0 →
      (id = .setup → dBad d = false → HasNext r → ∃ t, exec (.dscWr c id f) s = .next t ∧ SetDesc s t c r f.dN d) ∧
      (id ≠ .setup → exec (.dscWr c id f) s = .next (trapState s c id r 0x05 0))) ∧
    (Ready s c id r f.g [f.r1] → f.imm = 0 → f.r2 = 0 → MayWrite id f.r1 → HasNext r →
      ∃ t, exec (.dscRd c id f) s = .next t ∧ WroteS s t c id r f.r1
        (w32 ((tget (ctxOf (getCore s c.val) (getCore s c.val).active).descs f.dN.toNat 0).toNat / 2 ^ (32 * f.word.toNat)))) ∧
    (Ready s c id r f.g [f.r1] → f.dN = 0 → f.imm = 0 → 1 ≤ f.r2.toNat → f.word.toNat + f.r2.toNat ≤ 16 → id ≠ .setup → f.r1.toNat < 24 → HasNext r →
      ∃ t, exec (.dscTgx c id f) s = .next t ∧ WroteS s t c id r f.r1 (w32 (r.tg.toNat / 2 ^ f.word.toNat % 2 ^ f.r2.toNat)))

/-- R97, R98, R101, R43 to R45, R53: mma and drain raise DESC_FORMAT, DESC_RANGE, ALIGN or SRAM_RANGE, or enter the matrix queue behind the bank
rules: an ordered bank lets only its expected tag in, lets a later member wait and raises BANK_SEQ else; a default bank belongs to the firing
that cleared it, from its clearing mma to its drain. That a default bank which no firing owns is open to each, and that only a clearing mma takes
it, is the model's reading (log 83). -/
def Obligations.MatrixDispatch : Prop :=
  ∀ (s : State) (c : CoreIx) (n : Fin 8) (r : Run), HasNext r →
    (∀ (f32 : Bool) (f : FmtM), Ready s c (.slot n) r f.g (uses [f.ra, f.rb, f.rp]) → f.rsv = 0 →
      let i := siteFor s c (.slot n) r
      let a := viewOf i f.dA f.ra f.rp
      let b := viewOf i f.dB f.rb f.rp
      let x : Instr := if f32 then .mmaS c (.slot n) f else .mmaH c (.slot n) f
      (mmaBad f32 a.d b.d = true → exec x s = .next (trapState s c (.slot n) r 0x0D 0)) ∧
      (mmaBad f32 a.d b.d = false → SramRule s c n r x [a, b]) ∧
      (mmaBad f32 a.d b.d = false → sramTrap [a, b] = none →
        let clr := f.ca || (f.cp != 0 && readP s c (.slot n) f.cp)
        BankRule s c n r x f.bank.toNat (vRanges a ++ vRanges b) (.mma f32 f.bank.toNat clr a b)
          (if clr then some r.uid else (bankOf (getCore s c.val) f.bank.toNat).owner))) ∧
    (∀ (f : FmtN), Ready s c (.slot n) r f.g (uses [f.rp, f.roD, f.roE]) → f.rsv = 0 → f.ofmt ≠ 3 → f.epi.toNat < 4 →
      (f.dst = true → f.dD.toNat < 8 ∧ f.roD = 0) → (f.half = true → f.dst = true ∧ f.ofmt = 2) → (f.epi ≠ 3 → f.side = 0) →
      (f.epi ≠ 1 → f.epi ≠ 2 → f.dE = 0 ∧ f.roE = 0) →
      let i := siteFor s c (.slot n) r
      let dst : Option View := if f.dst then none else some (viewOf i f.dD f.roD f.rp)
      let ep : Option View := if f.epi = 1 ∨ f.epi = 2 then some (viewOf i f.dE f.roE f.rp) else none
      let sh := drainShape s i.x dst (f.dD.toNat % 8)
      (∀ m, drainPort (getCore s c.val) r.ctx f = some m → exec (.drain c (.slot n) f) s = .next (trapState s c (.slot n) r 0x06 (m + 8))) ∧
      (drainPort (getCore s c.val) r.ctx f = none → f.dst = true → f.ofmt = 2 → sh.1 > 16 → exec (.drain c (.slot n) f) s = .next (trapState s c (.slot n) r 0x0D 0)) ∧
      (drainPort (getCore s c.val) r.ctx f = none → (∃ v ∈ dst, drainDstBad f.ofmt.toNat v.d = true) → exec (.drain c (.slot n) f) s = .next (trapState s c (.slot n) r 0x0D 0)) ∧
      (drainPort (getCore s c.val) r.ctx f = none → (∃ v ∈ ep, drainEpiBad sh.1 sh.2 v.d = true) → exec (.drain c (.slot n) f) s = .next (trapState s c (.slot n) r 0x0D 0)) ∧
      (drainPort (getCore s c.val) r.ctx f = none → (f.dst = true → f.ofmt = 2 → sh.1 ≤ 16) → (∀ v ∈ dst, drainDstBad f.ofmt.toNat v.d = false) →
        (∀ v ∈ ep, drainEpiBad sh.1 sh.2 v.d = false) → SramRule s c n r (.drain c (.slot n) f) (dst.toList ++ ep.toList)) ∧
      (drainPort (getCore s c.val) r.ctx f = none → (f.dst = true → f.ofmt = 2 → sh.1 ≤ 16) → (∀ v ∈ dst, drainDstBad f.ofmt.toNat v.d = false) →
        (∀ v ∈ ep, drainEpiBad sh.1 sh.2 v.d = false) → sramTrap (dst.toList ++ ep.toList) = none →
        BankRule s c n r (.drain c (.slot n) f) f.bank.toNat ((dst.toList ++ ep.toList).flatMap vRanges)
          (.drain f.bank.toNat dst (f.dD.toNat % 8) f.ofmt.toNat f.epi.toNat ep f.side.toNat f.half
            (match dst with | some v => v.p | none => named i f.rp)) none))

/-- R96, R104 to R107, R168, R180, R183: vop, vred, vcmp, vexp and halo enter the vector queue, whose four places and the table of outstanding
accesses they wait for; nothing else of the core changes at issue.

R108: rl.ld, rl.st and rl.pf enter the queue of their channel; DESC_FORMAT for spaces and forms that the operation does not take. -/
def Obligations.VectorAndRollerDispatch : Prop :=
  (∀ (s : State) (c : CoreIx) (n : Fin 8) (r : Run), HasNext r →
     (∀ (f : FmtV), Ready s c (.slot n) r f.g (uses [f.rp, f.roD, f.roA, f.roB, f.rd]) → f.fn.toNat < 0x17 →
       (vopUsesB f.fn.toNat = false → f.dB = 0 ∧ f.roB = 0) → (vopUsesC f.fn.toNat = false → f.dC = 0) → (f.fn ≠ 0x16 → f.rd = 0) →
       let i := siteFor s c (.slot n) r
       let d := viewOf i f.dD f.roD f.rp
       let a := viewOf i f.dA f.roA f.rp
       let b : Option View := if vopUsesB f.fn.toNat then some (viewOf i f.dB f.roB f.rp) else none
       let e : Option View := if vopUsesC f.fn.toNat then some (viewOf i f.dC 0 f.rp) else none
       (vopBad f.fn.toNat d.d a.d (b.map (·.d)) (e.map (·.d)) = true → exec (.vop c (.slot n) f) s = .next (trapState s c (.slot n) r 0x0D 0)) ∧
       (vopBad f.fn.toNat d.d a.d (b.map (·.d)) (e.map (·.d)) = false → sramTrap ([d, a] ++ b.toList ++ e.toList) = none →
         VectorRule s c n r (.vop c (.slot n) f) (([d, a] ++ b.toList ++ e.toList).flatMap vRanges)
           (.vop f.fn.toNat d a b e (w32 (named i f.rd)) f.sr))) ∧
     (∀ (f : FmtV), Ready s c (.slot n) r f.g (uses [f.rp, f.roD, f.roA, f.roB]) → f.fn.toNat ≤ 4 → f.dC = 0 → f.rd = 0 →
       (f.fn.toNat < 3 → f.dB = 0 ∧ f.roB = 0) →
       let i := siteFor s c (.slot n) r
       let d := viewOf i f.dD f.roD f.rp
       let a := viewOf i f.dA f.roA f.rp
       let x : Option View := if f.fn.toNat ≥ 3 then some (viewOf i f.dB f.roB f.rp) else none
       vredBad d.d a.d (x.map (·.d)) = false → sramTrap ([d, a] ++ x.toList) = none →
         VectorRule s c n r (.vred c (.slot n) f) (([d, a] ++ x.toList).flatMap vRanges) (.vred f.fn.toNat d a x f.sr)) ∧
     (∀ (f : FmtV), Ready s c (.slot n) r f.g (f.rd :: uses [f.rp, f.roD, f.roA, f.roB]) → f.fn = 0 → f.dC = 0 → f.sr = false → f.rd.toNat < 24 →
       let i := siteFor s c (.slot n) r
       let d := viewOf i f.dD f.roD f.rp
       let a := viewOf i f.dA f.roA f.rp
       let m := viewOf i f.dB f.roB f.rp
       sramTrap [d, a, m] = none →
         (moveBad d.d a.d m.d a.d = false →
           VectorRule s c n r (.vcmp c (.slot n) f) (vRanges d ++ vRanges a ++ vRanges m) (.vcmp d a m f.rd)) ∧
         (moveBad d.d a.d m.d d.d = false →
           VectorRule s c n r (.vexp c (.slot n) f) (vRanges d ++ vRanges a ++ vRanges m) (.vexp d a m f.rd))) ∧
     (∀ (f : FmtW), Ready s c (.slot n) r f.g (uses [f.rp, f.roS]) → f.rsv = 0 →
       let i := siteFor s c (.slot n) r
       let v := viewOf i f.dS f.roS f.rp
       declType (getCore s c.val) r.ctx true f.outP.toNat = 2 → b2n (declF32 (getCore s c.val) r.ctx true f.outP.toNat) = dFmt v.d →
       declType (getCore s c.val) r.ctx false f.inP.toNat = 2 → b2n (declF32 (getCore s c.val) r.ctx false f.inP.toNat) = dFmt v.d →
       haloBad v.d f.dir.toNat = false → vRange v = false → vMisaligned v = false → vBeyond v = false → haloBeyond v f.dir.toNat = false →
         VectorRule s c n r (.halo c (.slot n) f) (haloRanges v f.dir.toNat) (.halo v f.outP.toNat f.inP.toNat f.dir.toNat false none))) ∧
  (∀ (s : State) (c : CoreIx) (id : RunId) (r : Run) (f : FmtL) (op : RlOp), Ready s c id r f.g (uses [f.rp, f.roL, f.roR]) → f.rsv = 0 → HasNext r →
     let i := siteFor s c id r
     let l := viewOf i f.dL f.roL f.rp
     let m := viewOf i f.dR f.roR f.rp
     let x : Instr := match op with | .ld => .rlLd c id f | .st => .rlSt c id f | .pf => .rlPf c id f
     let q := tget (getCore s c.val).rq f.ch.toNat []
     (rlBad op l.d m.d = true → exec x s = .next (trapState s c id r 0x0D 0)) ∧
     (rlBad op l.d m.d = false → vRange l = false → vRange m = false → rlMisaligned l = false → rlMisaligned m = false →
       (dSpace l.d = 0 → vBeyond l = false) → q.length < 8 → (getCore s c.val).accs.length < 32 →
       ∃ t, exec x s = .next t ∧
         tget (getCore t c.val).rq f.ch.toNat [] = q ++ [{ o := originOf i, op := op, l := l, r := m }] ∧
         (∀ ch, ch ≠ f.ch.toNat → tget (getCore t c.val).rq ch [] = tget (getCore s c.val).rq ch []) ∧
         (getCore t c.val).accs.length = (getCore s c.val).accs.length + 1 ∧ (getCore t c.val).nextSeq = (getCore s c.val).nextSeq + 1 ∧
         OnlyRun s (setCore t c.val { getCore t c.val with rq := (getCore s c.val).rq, accs := (getCore s c.val).accs, nextSeq := (getCore s c.val).nextSeq })
           c id (pastWord r r.pc.toNat).1))

/-- R40, R64: a firing starts where a place is free, with a tag of which every matched port holds a token; its registers and predicates are 0, its loop
stack is empty, tg is the tag, its program counter the declared entry, it holds the payload of each matched port, and the matched tokens leave
their stores.

R41, R44, R79: a firing that executed fin retires once it awaits nothing: it gives up its place, CORE_FIRED counts it, and every ordered bank whose
expected tag is its tag advances to the next member; while it awaits something nothing changes. That only banks of the firing's own context
advance is the model's reading (log 110). -/
def Obligations.Firings : Prop :=
  (∀ (s : State) (c : CoreIx) (mask : BitVec 8) (entry : BitVec 9), pmActive s = true →
     let k := getCore s c.val
     mayFire k = true → (ctxOf k k.active).mtch = some (mask, entry) → eligible k k.active mask ≠ [] → (∃ m, m < 8 ∧ tfind k.firings m = none) →
     ∃ t n r, exec (.firingStart c) s = .next t ∧ n < 8 ∧ tfind k.firings n = none ∧ tfind (getCore t c.val).firings n = some r ∧
       r.ctx = k.active ∧ r.pc = entry ∧ r.s = [] ∧ r.p = 0 ∧ r.loops = [] ∧ r.phase = .issuing ∧
       (∀ q, q < 8 → mask.getLsbD q = true → ∃ e ∈ tget k.stores q [], e.ctx = k.active ∧ e.tag = r.tg ∧ tfind r.held q = some e.held ∧
         (tget (getCore t c.val).stores q []).length + 1 = (tget k.stores q []).length ∧
         (∀ x, (tget (getCore t c.val).stores q []).count x + (if x = e then 1 else 0) = (tget k.stores q []).count x)) ∧
       (∀ q, (8 ≤ q ∨ mask.getLsbD q = false) → tget (getCore t c.val).stores q [] = tget k.stores q []) ∧
       (∀ m, m ≠ n → tfind (getCore t c.val).firings m = tfind k.firings m) ∧
       (∀ a, mread (getCore t c.val).sram a = mread k.sram a) ∧ (getCore t c.val).banks = k.banks ∧
       (∀ d, d ≠ c.val → getCore t d = getCore s d)) ∧
  (∀ (s : State) (c : CoreIx) (n : Fin 8) (r : Run), pmActive s = true → tfind (getCore s c.val).firings n.val = some r → r.phase = .fin → r.nan = none →
     (finWaits (getCore s c.val) r.uid = true → exec (.retirement c n) s = .next s) ∧
     (finWaits (getCore s c.val) r.uid = false → ∃ t, exec (.retirement c n) s = .next t ∧
       tfind (getCore t c.val).firings n.val = none ∧
       (∀ m, m ≠ n.val → tfind (getCore t c.val).firings m = tfind (getCore s c.val).firings m) ∧
       coreReg (getCore t c.val) 0x090 = coreReg (getCore s c.val) 0x090 + 1 ∧
       (∀ b k o, tfind (getCore s c.val).banks b = some k → k.order = some o → ∃ k', tfind (getCore t c.val).banks b = some k' ∧ k'.vals = k.vals ∧
         k'.order = some (if o.e = r.tg ∧ o.ctx = r.ctx then { o with e := nextMember o } else o)) ∧
       (∀ a, mread (getCore t c.val).sram a = mread (getCore s c.val).sram a) ∧ (getCore t c.val).stores = (getCore s c.val).stores ∧
       (∀ d, d ≠ c.val → getCore t d = getCore s d)))

/-- R123, R76: a token at a port is accepted into the store, a tile into a free landing slot, or waits; each waiting cycle is counted by the first
condition that fails. That it is the first free slot is the model's choice (log 141).

R76: a draining landing slot is free once no access issued before the retirement overlaps it.

R86, R131, R135: a section token of the active context that names another context starts the switch; one for another context or for the active one
is discarded and counted by the cluster. A DROP switch ends the firings and the setup run of the old context, discards and counts its stored
tokens and sets DROPPED where there was one; no bank advances and CORE_FIRED counts nothing. -/
def Obligations.TokensAtCores : Prop :=
  (∀ (s : State) (c : CoreIx) (port : Fin 8) (tok : Token) (ts : List Token), pmActive s = true →
     let k := getCore s c.val
     tget k.arrivals port.val [] = tok :: ts → (∀ m n q, tok.body ≠ .sect m n q) →
     (∀ o, arrivalFails k port.val tok = some o → exec (.tokenArrival c port) s = .next (setCore s c.val (k.count o 1))) ∧
     (∀ w, arrivalFails k port.val tok = none → tok.body = .word w → ∃ t, exec (.tokenArrival c port) s = .next t ∧ OnlyCore s t c.val ∧
       tget (getCore t c.val).stores port.val [] = tget k.stores port.val [] ++ [{ tag := tok.tag, ctx := tok.ctx, held := .word w }] ∧
       tget (getCore t c.val).arrivals port.val [] = ts ∧
       { getCore t c.val with stores := [], arrivals := [] } = { k with stores := [], arrivals := [] }) ∧
     (∀ f32 rows cols bytes g i, arrivalFails k port.val tok = none → tok.body = .tile f32 rows cols bytes →
       tfind (ctxOf k tok.ctx).rings port.val = some g → g.slots.findIdx? (· == .free) = some i →
       ∃ t, exec (.tokenArrival c port) s = .next t ∧ OnlyCore s t c.val ∧
         tget (getCore t c.val).stores port.val [] = tget k.stores port.val [] ++
           [{ tag := tok.tag, ctx := tok.ctx, held := .tile i (g.base + i * (if g.f32 then 4096 else 2048)) rows cols }] ∧
         tget (getCore t c.val).arrivals port.val [] = ts ∧
         tfind (ctxOf (getCore t c.val) tok.ctx).rings port.val = some { g with slots := g.slots.set i .stored } ∧
         (getCore t c.val).sram = frameWrite f32 (cols * (if f32 then 4 else 2)) rows k.sram (g.base + i * (if g.f32 then 4096 else 2048)) bytes ∧
         (getCore t c.val).firings = k.firings ∧ (getCore t c.val).banks = k.banks ∧ (getCore t c.val).regs = k.regs)) ∧
  (∀ (s : State) (c : CoreIx) (x : Fin 4) (port : Fin 8) (i : Fin 64) (g : Ring) (q : Nat), pmActive s = true →
     tfind (ctxOf (getCore s c.val) x.val).rings port.val = some g → g.slots[i.val]? = some (.draining q) →
     let sz := if g.f32 then 4096 else 2048
     ((∃ a ∈ (getCore s c.val).accs, a.seq < q ∧ rangesMeet a.ranges [(g.base + i.val * sz, sz)] = true) ∨ haloHolds (getCore s c.val) (g.base + i.val * sz) = true → exec (.landingSlotFree c x port i) s = .next s) ∧
     ((∀ a ∈ (getCore s c.val).accs, a.seq < q → rangesMeet a.ranges [(g.base + i.val * sz, sz)] = false) → haloHolds (getCore s c.val) (g.base + i.val * sz) = false →
       ∃ t, exec (.landingSlotFree c x port i) s = .next t ∧ OnlyCore s t c.val ∧
         tfind (ctxOf (getCore t c.val) x.val).rings port.val = some { g with slots := g.slots.set i.val .free } ∧
         (∀ m, m ≠ port.val → tfind (ctxOf (getCore t c.val) x.val).rings m = tfind (ctxOf (getCore s c.val) x.val).rings m) ∧
         { getCore t c.val with ctxs := [] } = { getCore s c.val with ctxs := [] })) ∧
  (∀ (s : State) (c : CoreIx) (port : Fin 8) (tok : Token) (ts : List Token) (mode new : Nat) (seq : BitVec 16), pmActive s = true →
     let k := getCore s c.val
     tget k.arrivals port.val [] = tok :: ts → k.switching = none → tok.body = .sect mode new seq →
     ∃ t, exec (.coreSectionToken c port) s = .next t ∧ tget (getCore t c.val).arrivals port.val [] = ts ∧
       (tok.ctx ≠ k.active ∨ new = k.active →
         (getCore t c.val).switching = none ∧ clReg (getCl t (c.val / 32)) 0x10C = clReg (getCl s (c.val / 32)) 0x10C + 1 ∧
         { getCore t c.val with arrivals := [] } = { k with arrivals := [] }) ∧
       (tok.ctx = k.active → new ≠ k.active → mode ≠ 2 →
         { getCore t c.val with arrivals := [] } = { k with arrivals := [], switching := some { mode := mode, new := new, seq := seq } } ∧
         OnlyCore s t c.val) ∧
       (tok.ctx = k.active → new ≠ k.active → mode = 2 →
         let n := (k.stores.map (fun q => storeCount q.2 k.active)).sum
         (getCore t c.val).switching = some { mode := mode, new := new, seq := seq } ∧ (getCore t c.val).active = k.active ∧
         (∀ f ∈ (getCore t c.val).firings, f.2.ctx ≠ k.active) ∧ (ctxOf (getCore t c.val) k.active).setup = none ∧
         (∀ m r, tfind k.firings m = some r → r.ctx ≠ k.active → (∀ f ∈ k.firings, f.1 = m → f.2.ctx ≠ k.active) → tfind (getCore t c.val).firings m = some r) ∧
         (∀ q, tget (getCore t c.val).stores q [] = (tget k.stores q []).filter (fun e => e.ctx != k.active)) ∧
         coreReg (getCore t c.val) 0x010 = coreReg k 0x010 + w32 n ∧ bit (coreReg (getCore t c.val) 0x004) 2 = (bit (coreReg k 0x004) 2 || decide (0 < n)) ∧
         (∀ o, o ≠ 0x010 → o ≠ 0x004 → coreReg (getCore t c.val) o = coreReg k o) ∧
         (∀ b x, tfind k.banks b = some x → ∃ y, tfind (getCore t c.val).banks b = some y ∧ y.vals = x.vals ∧ y.order = x.order) ∧
         (getCore t c.val).sram = k.sram ∧ (∀ d, d ≠ c.val → getCore t d = getCore s d)))

/-- R86, R85: in every mode the switch is done once no firing of the old context is resident and no setup run of it runs, and, in DRAIN, no store holds a
token of it; PARK goes on as DRAIN where a store holds more than 16; DROP has nothing left to wait for but runs (what it ends and discards at its
start, TokensAtCores says). Then the new context is active, and has its setup run if it is due (R62). The wait for a setup run of the old context
(log 86), and that a switch asked for meanwhile starts now (log 17), are the model's readings. -/
def Obligations.ContextSwitches : Prop :=
  ∀ (s : State) (c : CoreIx) (w : CtxSwitch), pmActive s = true →
    let k := getCore s c.val
    let idle := (∀ f ∈ k.firings, f.2.ctx ≠ k.active) ∧ (ctxOf k k.active).setup = none
    k.switching = some w →
    (¬ idle → exec (.contextSwitchDone c) s = .next s) ∧
    (idle → w.mode = 1 → (∃ q ∈ k.stores, storeCount q.2 k.active > 16) →
      exec (.contextSwitchDone c) s = .next (setCore s c.val { k with switching := some { w with mode := 0 } })) ∧
    (idle → w.mode = 0 → (∃ q ∈ k.stores, storeCount q.2 k.active > 0) → exec (.contextSwitchDone c) s = .next s) ∧
    (idle → (w.mode = 0 → ∀ q ∈ k.stores, storeCount q.2 k.active = 0) → (w.mode = 1 → ∀ q ∈ k.stores, storeCount q.2 k.active ≤ 16) →
      (∀ v ∈ k.switchNext.head?, v.mode ≠ 2) →
      ∃ t, exec (.contextSwitchDone c) s = .next t ∧ (getCore t c.val).active = w.new ∧ (getCore t c.val).switching = k.switchNext.head? ∧
        (getCore t c.val).switchNext = k.switchNext.tail ∧
        (getCore t c.val).stores = k.stores ∧ (getCore t c.val).firings = k.firings ∧ (getCore t c.val).sram = k.sram ∧
        (∀ st, (ctxOf k w.new).stn = some st → (ctxOf k w.new).needSetup = true →
          ∃ r, (ctxOf (getCore t c.val) w.new).setup = some r ∧ r.pc = 2 ∧ r.s = [] ∧ r.p = 0 ∧ r.tg = 0 ∧
            (ctxOf (getCore t c.val) w.new).needSetup = false) ∧
        ((ctxOf k w.new).needSetup = false → (getCore t c.val).ctxs = k.ctxs) ∧ (∀ d, d ≠ c.val → getCore t d = getCore s d))

/-- R95, R98, R101, R151, R154, R160 to R163: the head of the matrix queue waits behind an earlier access that overlaps; an mma gives its bank the values that
MatrixArithmetic describes and leaves memory and the other banks; a drain puts the converted elements of the epilogue into its region, and no
other byte of data SRAM changes, or into a tile token, and leaves the banks; it sets the flags and sends the NaN and step-overflow reports of
its elements. While a drain at the head waits, an mma to another bank passes it. That an out port is full with one token (log 12), and that the
tokens of a drain stand at their ports as it runs (log 102), are the model's choices.

R98, R101, R145 to R149, R155: the arithmetic of an mma and of a drain. A position of the product takes one chunk after another in ascending order, from
+0.0 where the mma clears; a position outside it takes nothing. A binary16 chunk does not depend on the order of its products; NaN and
infinity times zero give NaN32; the sum of finite products is exact and rounded once. That rounding is to nearest even with 24 bits, overflows to
infinity from 2^128 on, gives zero below 2^-126, and leaves a normal binary32 value as it is. -0.0 is the identity of binary32 addition.
Conversion of a drain: binary32 unchanged, NaN to 0x7E00, infinities kept, exact binary16 values never moved in either rounding, a magnitude of
65,520 or more to infinity with OVF. -/
def Obligations.MatrixQueueRuns : Prop :=
  (∀ (s : State) (c : CoreIx) (q : MxItem) (qs : List MxItem) (retry : Bool), pmActive s = true →
     let k := getCore s c.val
     k.mq = q :: qs →
     (∀ a, earlier k q.o.seq = some a → (∀ x ∈ earlierAll k q.o.seq, x.tier = 0) →
       (∀ m f32 b clr va vb, qs.head? = some m → m.op = .mma f32 b clr va vb → mxWaits q.op = true ∨ mxBank q.op = some b) →
       exec (.matrixQueueStart c retry) s = .next (setCore s c.val (k.count 0x03C 1))) ∧
     (∀ a b d port ofmt epi e side half p m ms f32 b' clr va vb, earlier k q.o.seq = some a → (∀ x ∈ earlierAll k q.o.seq, x.tier = 0) →
       q.op = .drain b d port ofmt epi e side half p → qs = m :: ms → m.op = .mma f32 b' clr va vb → b' ≠ b → earlier k m.o.seq = none →
       ∃ t, exec (.matrixQueueStart c retry) s = .next t ∧ OnlyCore s t c.val ∧ (getCore t c.val).mq = q :: ms ∧
         bankOf (getCore t c.val) b' = { bankOf k b' with vals := (mmaBank f32 clr k.sram va vb (bankOf k b')).1 } ∧
         coreReg (getCore t c.val) 0x03C = coreReg k 0x03C + 1) ∧
     (∀ f32 b clr va vb, earlier k q.o.seq = none → q.op = .mma f32 b clr va vb → ∃ t, exec (.matrixQueueStart c retry) s = .next t ∧
       OnlyCore s t c.val ∧ (getCore t c.val).mq = qs ∧
       bankOf (getCore t c.val) b = { bankOf k b with vals := (mmaBank f32 clr k.sram va vb (bankOf k b)).1 } ∧
       (let fl := (mmaBank f32 clr k.sram va vb (bankOf k b)).2
        bit (coreReg (getCore t c.val) 0x080) 0 = (bit (coreReg k 0x080) 0 || fl.inv) ∧ bit (coreReg (getCore t c.val) 0x080) 1 = (bit (coreReg k 0x080) 1 || fl.ovf) ∧
        bit (coreReg (getCore t c.val) 0x080) 2 = (bit (coreReg k 0x080) 2 || fl.flush)) ∧
       (∀ m, m ≠ b → bankOf (getCore t c.val) m = bankOf k m) ∧
       (getCore t c.val).accs = k.accs.filter (fun a => a.seq != q.o.seq) ∧
       (∀ a, mread (getCore t c.val).sram a = mread k.sram a) ∧
       { getCore t c.val with regs := [], mq := [], banks := [], accs := [], retries := 0 } = { k with regs := [], mq := [], banks := [], accs := [], retries := 0 }) ∧
     (∀ b d port ofmt epi e half p, earlier k q.o.seq = none → q.op = .drain b (some d) port ofmt epi e 0 half p → epi ≠ 3 →
       ∃ t, exec (.matrixQueueStart c retry) s = .next t ∧ OnlyCore s t c.val ∧ (getCore t c.val).mq = qs ∧ (getCore t c.val).banks = k.banks ∧
         (getCore t c.val).accs = k.accs.filter (fun a => a.seq != q.o.seq) ∧ (getCore t c.val).outs = k.outs ∧
         (getCore t c.val).firings = k.firings ∧
         EngineTells k (getCore t c.val) q.o false (if ofmt = 2 then 1 else 0) (drainElems k b ofmt epi e (drainBits k q.o b p) 0 (dExt d.d 1) (dExt d.d 0)) ∧
         ((∀ m n m' n', m < dExt d.d 1 → n < dExt d.d 0 → m' < dExt d.d 1 → n' < dExt d.d 0 → (m ≠ m' ∨ n ≠ n') →
             Apart (vAddr d [(n : Int), (m : Int)]) (dSize d.d) (vAddr d [(n' : Int), (m' : Int)]) (dSize d.d)) →
           ∀ m n, m < dExt d.d 1 → n < dExt d.d 0 → mreads (getCore t c.val).sram (vAddr d [(n : Int), (m : Int)]).toNat (dSize d.d) =
             leBytes (dSize d.d) (drainElem k b ofmt epi e (drainBits k q.o b p) 0 m n).1.toNat) ∧
         (∀ a, (∀ m n, m < dExt d.d 1 → n < dExt d.d 0 →
             ¬ ((vAddr d [(n : Int), (m : Int)]).toNat ≤ a ∧ a < (vAddr d [(n : Int), (m : Int)]).toNat + dSize d.d)) →
           mread (getCore t c.val).sram a = mread k.sram a)) ∧
     (∀ b port ofmt epi e half p, earlier k q.o.seq = none → q.op = .drain b none port ofmt epi e 0 half p → epi ≠ 3 →
       (tfind k.outs port ≠ none →
         (∀ m f32 b' clr va vb, qs.head? = some m → m.op = .mma f32 b' clr va vb → b' = b) → exec (.matrixQueueStart c retry) s = .next (setCore s c.val (k.count 0x034 1))) ∧
       (tfind k.outs port ≠ none → ∀ m ms f32 b' clr va vb, qs = m :: ms → m.op = .mma f32 b' clr va vb → b' ≠ b → earlier k m.o.seq = none →
         ∃ t, exec (.matrixQueueStart c retry) s = .next t ∧ OnlyCore s t c.val ∧ (getCore t c.val).mq = q :: ms ∧
           bankOf (getCore t c.val) b' = { bankOf k b' with vals := (mmaBank f32 clr k.sram va vb (bankOf k b')).1 } ∧
           coreReg (getCore t c.val) 0x034 = coreReg k 0x034 + 1 ∧ (getCore t c.val).outs = k.outs) ∧
       (tfind k.outs port = none → ∃ t x, exec (.matrixQueueStart c retry) s = .next t ∧ OnlyCore s t c.val ∧ (getCore t c.val).mq = qs ∧
         (getCore t c.val).banks = k.banks ∧ tfind (getCore t c.val).outs port = some x ∧ x.uid = q.o.uid ∧ x.tok.tag = q.o.tag ∧
         x.tok.ctx = q.o.ctx ∧
         (let sh := outShape s (ctxOf k q.o.ctx) port
          let els := drainElems k b ofmt epi e (drainBits k q.o b p) (if ofmt = 2 ∧ half = true then 16 else 0) sh.1 sh.2
          x.tok.body = .tile (ofmt == 2) sh.1 sh.2 (els.flatMap (fun y => leBytes (if ofmt = 2 then 4 else 2) y.2.1.toNat)) ∧
          EngineTells k (getCore t c.val) q.o false (if ofmt = 2 then 1 else 0) els) ∧
         (∀ a, mread (getCore t c.val).sram a = mread k.sram a)))) ∧
  ((∀ (f32 clr : Bool) (m : Mem) (a b : View) (k : Bank) (i n : Nat), i < 32 → n < 32 →
     let old := if clr then 0 else bankVal k i n
     bankVal { k with vals := (mmaBank f32 clr m a b k).1 } i n =
       if i < dExt a.d 1 ∧ n < dExt b.d 0 then
         (List.range (ceilDiv (dExt a.d 0) 32)).foldl (fun acc c =>
           let ks := List.range (min 32 (dExt a.d 0 - 32 * c))
           let x := ks.map (fun j => vAt m a [((32 * c + j : Nat) : Int), (i : Int)])
           let y := ks.map (fun j => vAt m b [(n : Int), ((32 * c + j : Nat) : Int)])
           (if f32 then chunkS acc x y else chunkH acc x y).1) old
       else old) ∧
   (∀ (acc : Word) (ps qs : List (Word × Word)), ps.Perm qs → chunkH acc (ps.map (·.1)) (ps.map (·.2)) = chunkH acc (qs.map (·.1)) (qs.map (·.2))) ∧
   (∀ (acc : Word) (ps : List (Word × Word)),
     ((∃ p ∈ ps, (dec16 p.1).isNan = true ∨ (dec16 p.2).isNan = true) → (chunkH acc (ps.map (·.1)) (ps.map (·.2))).1 = 0x7FC00000) ∧
     ((∃ p ∈ ps, ∃ s, dec16 p.1 = .inf s ∧ (dec16 p.2).isZero = true) → (chunkH acc (ps.map (·.1)) (ps.map (·.2))).1 = 0x7FC00000) ∧
     (∀ (v : Word × Word → Int) n m e, (∀ p ∈ ps, ∃ s1 m1 e1 s2 m2 e2, dec16 p.1 = .fin s1 m1 e1 ∧ dec16 p.2 = .fin s2 m2 e2 ∧
         v p = (if s1 = s2 then 1 else -1) * ((m1 * m2 * 2 ^ (e1 + e2 + 48).toNat : Nat) : Int)) →
       ftz acc = (acc, false) → dec32 acc = .fin n m e → ∃ z, (chunkH acc (ps.map (·.1)) (ps.map (·.2))).1 = (finish32 z).1 ∧ z.st = false ∧ z.e ≤ -48 ∧ z.e ≤ e ∧
         (if z.neg then -(z.m : Int) else (z.m : Int)) =
           (if n then -1 else 1) * ((m * 2 ^ (e - z.e).toNat : Nat) : Int) + (ps.map v).sum * ((2 ^ (-48 - z.e).toNat : Nat) : Int))) ∧
   (∀ (m : Nat) (e q : Int), e < q →
     let h := 2 ^ (q - e).toNat
     let k := roundAt m e false q
     2 * (k * h) ≤ 2 * m + h ∧ 2 * m ≤ 2 * (k * h) + h ∧ ((2 * (k * h) = 2 * m + h ∨ 2 * m = 2 * (k * h) + h) → k % 2 = 0)) ∧
   (∀ (n : Bool) (m : Nat) (e : Int), m ≠ 0 →
     (128 ≤ e + m.log2 → finish32 { neg := n, m := m, e := e } = (inf32 n, { ovf := true })) ∧
     (e + m.log2 < -127 → finish32 { neg := n, m := m, e := e } = ((if n then 0x80000000 else 0), { flush := true }))) ∧
   (∀ (w : Word) n m e, dec32 w = .fin n m e → fld w 30 23 ≠ 0 → finish32 { neg := n, m := m, e := e } = (w, {})) ∧
   (∀ w : Word, (dec32 w).isNan = false → ftz w = (w, false) → add32 w 0x80000000 = (w, {})) ∧
   (∀ (v : Word) (u : Nat), convert v 2 u = (v, {}) ∧
     (∀ o, o < 2 → (dec32 v).isNan = true → (convert v o u).1 = 0x7E00) ∧
     (∀ o s, o < 2 → dec32 v = .inf s → (convert v o u).1 = (if s then 0xFC00 else 0x7C00)) ∧
     (∀ n m e, dec32 v = .fin n m e → 65520 ≤ truncAt m e 0 → convert v 0 u = ((if n then 0xFC00 else 0x7C00), { ovf := true })) ∧
     (∀ n m e, dec32 v = .fin n m e → truncAt m e 0 < 65520 → (convert v 0 u).2.ovf = false)) ∧
   (∀ (h : Word) (o u : Nat), h.toNat < 65536 → (dec16 h).isNan = false → o < 2 → u < 65536 → (convert (widen false h).1 o u).1 = h))

/-- R95, R169, R104 to R106, R170, R183: the head of the vector queue waits behind an earlier access that overlaps; else it leaves the queue and the access
table, and of data SRAM changes only bytes of its destination; vcmp and vexp put their count into rd of the firing.

R168 to R171, R181 to R184, R106, R160 to R163: what a vector instruction writes. vop writes at each real position of dD its function of the inputs at that
position, with the random bits of its walk index, and sets the flags and sends the reports of those elements; vred the result of its row, and the
index beside it; vcmp the selected elements of A, in walk order, to the first real positions of D; vexp the next element of A where the mask
selects, A's PAD past A's end, and D's PAD elsewhere. That a binary32 subnormal in a mask counts as zero is the model's reading (log 78).

R172 to R177, R182: the functions of the vector engine. In binary32 mode add, sub and mul are the engine's binary32 addition and multiplication of
the widened operands; in both modes the operands outside the finite nonzero range give what the table of R174 states; relu, min, max and abs
order -0.0 and NaN as R153 and R175 say; cmplt gives 1.0 or 0; conversion to int32 rounds to nearest even and saturates with INV; dropout drops
with probability 0 at P of 1 or more. A row maximum takes its lowest-indexed NaN and, of equal values, the first. That infinity times zero plus a
quiet NaN sets INV is the model's choice (log 146).

R107: halo at the head of the vector queue: a rank with a neighbour on that side sends its border as a tile token with its tag, once the out port
is free; a rank without one on the other side fills its halo with PAD; a rank with one waits for its token, writes the tile into the halo, or
raises PORT for another shape and leaves the halo; no other byte of data SRAM changes. That the send precedes the receipt (log 82),
that a border of width 0 neither sends nor takes a token and what CORE_VXBUSY gains (log 103), the port that one token fills (log 12) and a tile's place
among a port's tokens (log 102) are the model's readings. -/
def Obligations.VectorQueueRuns : Prop :=
  (∀ (s : State) (c : CoreIx) (q : VxItem) (qs : List VxItem) (retry : Bool), pmActive s = true →
     let k := getCore s c.val
     k.vq = q :: qs →
     (∀ a, earlier k q.o.seq = some a → (∀ x ∈ earlierAll k q.o.seq, x.tier = 0) → exec (.vectorQueueStart c retry) s = .next (setCore s c.val (k.count 0x03C 1))) ∧
     (∀ fn d a b e key sr, earlier k q.o.seq = none → q.op = .vop fn d a b e key sr → ∃ t, exec (.vectorQueueStart c retry) s = .next t ∧
       VectorDone s t c q qs d ∧ (getCore t c.val).firings = k.firings) ∧
     (∀ fn d a sr, earlier k q.o.seq = none → q.op = .vred fn d a none sr → ∃ t, exec (.vectorQueueStart c retry) s = .next t ∧
       VectorDone s t c q qs d ∧ (getCore t c.val).firings = k.firings) ∧
     (∀ fn d a iv sr, earlier k q.o.seq = none → q.op = .vred fn d a (some iv) sr → ∃ t, exec (.vectorQueueStart c retry) s = .next t ∧
       OnlyCore s t c.val ∧ (getCore t c.val).vq = qs ∧
       (∀ b, (∀ p ∈ walkReal d.d, ¬((vAddr d p.i).toNat ≤ b ∧ b < (vAddr d p.i).toNat + dSize d.d) ∧
           ¬((vAddr iv p.i).toNat ≤ b ∧ b < (vAddr iv p.i).toNat + dSize iv.d)) →
         mread (getCore t c.val).sram b = mread k.sram b)) ∧
     (∀ d a m rd, earlier k q.o.seq = none → q.op = .vcmp d a m rd → ∃ t, exec (.vectorQueueStart c retry) s = .next t ∧
       VectorDone s t c q qs d ∧
       (∀ n r, k.firings.find? (fun f => f.2.uid == q.o.uid) = some (n, r) →
         ∃ r', tfind (getCore t c.val).firings n = some r' ∧ tget r'.s rd.toNat 0 = w32 (runVcmp k.sram d a m).count ∧ r'.pc = r.pc ∧ r'.p = r.p)) ∧
     (∀ d a m rd, earlier k q.o.seq = none → q.op = .vexp d a m rd → ∃ t, exec (.vectorQueueStart c retry) s = .next t ∧
       VectorDone s t c q qs d ∧
       (∀ n r, k.firings.find? (fun f => f.2.uid == q.o.uid) = some (n, r) →
         ∃ r', tfind (getCore t c.val).firings n = some r' ∧ tget r'.s rd.toNat 0 = w32 (runVexp k.sram d a m).count ∧ r'.pc = r.pc ∧ r'.p = r.p))) ∧
  (∀ (s : State) (c : CoreIx) (q : VxItem) (qs : List VxItem) (retry : Bool), pmActive s = true →
     let k := getCore s c.val
     k.vq = q :: qs → earlier k q.o.seq = none →
     (∀ fn d a b e key sr, q.op = .vop fn d a b e key sr → dFmt d.d < 2 → WritesApart d ([a] ++ b.toList ++ e.toList) →
       let u := fun (n : Nat) => if sr then some (vxBits k q.o d n) else none
       let dr := fun (n : Nat) => if fn = 0x16 then dropBits (ctxOf k q.o.ctx).seed (ctxOf k q.o.ctx).step q.o.layer key n else 0
       let el := fun (n : Nat) (p : Pos) => vopElem fn (allB16 ([d, a] ++ b.toList ++ e.toList)) (dFmt d.d) (dFmt a.d, vGet k.sram a p)
         (b.map (fun w => (dFmt w.d, vGet k.sram w p))) (e.map (fun w => (dFmt w.d, vGet k.sram w p))) (u n) (dr n)
       ∃ t, exec (.vectorQueueStart c retry) s = .next t ∧ (∀ n p, (n, p) ∈ walkAt d.d → Holds (getCore t c.val) d p (el n p).1) ∧
         EngineTells k (getCore t c.val) q.o true (dFmt d.d) ((walkAt d.d).map (fun x => (x.1, el x.1 x.2)))) ∧
     (∀ fn d a iv sr, q.op = .vred fn d a iv sr → dFmt d.d < 2 → WritesApart d [] → FarFrom d a →
       (∀ v ∈ iv, WritesApart v [] ∧ FarFrom v a ∧ (∀ p ∈ walkReal d.d, ∀ r ∈ walkReal d.d, Apart (vAddr d p.i) (dSize d.d) (vAddr v r.i) (dSize v.d)) ∧ walkReal v.d = walkReal d.d) →
       (∀ p ∈ walkReal d.d, ∀ j, j < dExt a.d 0 → ∃ r ∈ walkReal a.d, vAddr a r.i = vAddr a ((j : Int) :: p.i.tail)) →
       let el := fun (n : Nat) (p : Pos) => vredRow fn (allB16 ([d, a] ++ iv.toList)) k.sram d a (if sr then some (vxBits k q.o d n) else none) p.i.tail
       ∃ t, exec (.vectorQueueStart c retry) s = .next t ∧ (∀ n p, (n, p) ∈ walkAt d.d → Holds (getCore t c.val) d p (el n p).1 ∧
           ∀ v ∈ iv, Holds (getCore t c.val) v p (w32 (el n p).2.1)) ∧
         EngineTells k (getCore t c.val) q.o true (dFmt d.d) ((walkAt d.d).map (fun x => (x.1, (el x.1 x.2).1, (el x.1 x.2).2.2)))) ∧
     (∀ d a m rd, q.op = .vcmp d a m rd → WritesApart d [] → FarFrom d a →
       (∀ p ∈ walkReal d.d, ∀ r ∈ walkReal a.d, Apart (vAddr d p.i) (dSize d.d) (vAddr m r.i) (dSize m.d)) →
       let sel := (walkReal a.d).filter (maskOn k.sram m)
       ∃ t, exec (.vectorQueueStart c retry) s = .next t ∧
         (∀ (j : Nat) (p r : Pos), (walkReal d.d)[j]? = some p → sel[j]? = some r → Holds (getCore t c.val) d p (vGet k.sram a r)) ∧
         (∀ (j : Nat) (p : Pos), (walkReal d.d)[j]? = some p → sel.length ≤ j →
           mreads (getCore t c.val).sram (vAddr d p.i).toNat (dSize d.d) = mreads k.sram (vAddr d p.i).toNat (dSize d.d)) ∧
         (runVcmp k.sram d a m).count = sel.length) ∧
     (∀ d a m rd, q.op = .vexp d a m rd → WritesApart d [] → FarFrom d a →
       (∀ p ∈ walkReal d.d, ∀ r ∈ walkReal d.d, Apart (vAddr d p.i) (dSize d.d) (vAddr m r.i) (dSize m.d)) →
       ∃ t, exec (.vectorQueueStart c retry) s = .next t ∧
         (∀ (j : Nat) (p : Pos), (walkReal d.d)[j]? = some p →
           let n := ((walkReal d.d).take j).countP (maskOn k.sram m)
           Holds (getCore t c.val) d p (if maskOn k.sram m p then (match (walkReal a.d)[n]? with | some r => vGet k.sram a r | none => dPad a.d) else dPad d.d)) ∧
         (runVexp k.sram d a m).count = (walkReal d.d).countP (maskOn k.sram m))) ∧
  ((∀ x y : Word,
     (vopElem 0x01 false 1 (1, x) (some (1, y)) none none 0).1 = (add32 (widen true x).1 (widen true y).1).1 ∧
     (vopElem 0x02 false 1 (1, x) (some (1, y)) none none 0).1 = (add32 (widen true x).1 ((widen true y).1 ^^^ 0x80000000)).1 ∧
     (vopElem 0x03 false 1 (1, x) (some (1, y)) none none 0).1 = (mul32 (widen true x).1 (widen true y).1).1) ∧
   (∀ (f16 : Bool) (fn : Nat) (v y z : Val), fn < 0x16 → fn ≠ 0x05 → fn ≠ 0x06 → fn ≠ 0x14 → fn ≠ 0x15 → v.isNan = true →
     (vopRes fn f16 v y z).1 = .nan ∧ ((vopRes fn f16 v y z).2.inv = true ↔ v.isSig = true ∨
       ((0x01 ≤ fn ∧ fn ≤ 0x04 ∨ fn = 0x12) ∧ y.isSig = true) ∨ (fn = 0x04 ∧ z.isSig = true))) ∧
   (∀ (f16 n a : Bool) (m : Nat) (e : Int) (z w : Val), m ≠ 0 →
     let zero := Val.fin n 0 e
     let fin := Val.fin n m e
     (vopRes 0x0A f16 (.inf n) z w).1 = (if n then .ex { neg := false, m := 0, e := 0 } else .inf false) ∧
     (vopRes 0x0B f16 zero z w).1 = .inf true ∧ (vopRes 0x0B f16 (.inf false) z w).1 = .inf false ∧
     (∀ fn, fn = 0x0B ∨ fn = 0x11 ∨ fn = 0x13 →
       vopRes fn f16 (.fin true m e) z w = (.nan, { inv := true }) ∧ vopRes fn f16 (.inf true) z w = (.nan, { inv := true })) ∧
     ((vopRes 0x13 f16 zero z w).1.to32).1 = (if n then 0x80000000 else 0) ∧ (vopRes 0x13 f16 (.inf false) z w).1 = .inf false ∧
     ((vopRes 0x0C f16 zero z w).1.to32).1 = (if n then 0x80000000 else 0) ∧ ((vopRes 0x0C f16 (.inf n) z w).1.to32).1 = (if n then 0xBF800000 else 0x3F800000) ∧
     ((vopRes 0x0F f16 (.inf n) z w).1.to32).1 = (if n then 0 else 0x3F800000) ∧
     ((vopRes 0x0D f16 zero z w).1.to32).1 = (if n then 0x80000000 else 0) ∧ ((vopRes 0x0D f16 (.inf n) z w).1.to32).1 = (if n then 0x80000000 else 0x7F800000) ∧
     ((vopRes 0x0E f16 zero z w).1.to32).1 = 0x3F000000 ∧ ((vopRes 0x0E f16 (.inf n) z w).1.to32).1 = (if n then 0x80000000 else 0x3F800000) ∧
     (vopRes 0x10 f16 zero z w).1 = .inf n ∧ ((vopRes 0x10 f16 (.inf n) z w).1.to32).1 = (if n then 0x80000000 else 0) ∧
     (vopRes 0x11 f16 zero z w).1 = .inf n ∧ ((vopRes 0x11 f16 (.inf false) z w).1.to32).1 = 0 ∧
     vopRes 0x12 f16 fin (.fin a 0 e) w = (.inf (n != a), {}) ∧ vopRes 0x12 f16 zero (.fin a 0 e) w = (.nan, { inv := true }) ∧
     vopRes 0x12 f16 (.inf n) (.inf a) w = (.nan, { inv := true }) ∧ ((vopRes 0x12 f16 fin (.inf a) w).1.to32).1 = (if n != a then 0x80000000 else 0)) ∧
   (∀ (f16 : Bool) (a b w : Val),
     (vopRes 0x05 f16 a b w).1 = a.toRes.1 ∨ (vopRes 0x05 f16 a b w).1 = b.toRes.1) ∧
   (∀ (f16 s : Bool) (e : Int) (b w : Val), (b.isNan = false → (vopRes 0x05 f16 (.nan s) b w).1 = b.toRes.1 ∧ (vopRes 0x06 f16 (.nan s) b w).1 = .nan) ∧
     (vopRes 0x09 f16 (.fin true 0 e) b w).1 = .ex { neg := false, m := 0, e := 0 } ∧
     (vopRes 0x14 f16 (.nan s) b w).1 = .ex { neg := false, m := 0, e := 0 } ∧
     (vopRes 0x14 f16 (.fin true 0 e) (.fin false 0 e) w).1 = .ex { neg := false, m := 0, e := 0 }) ∧
   (∀ (n : Bool) (m : Nat) (e : Int), toInt32 (.nan n) = (0, { inv := true }) ∧ toInt32 (.inf n) = ((if n then 0x80000000 else 0x7FFFFFFF), { inv := true }) ∧
     (let k := roundAt m e false 0
      (k < 2 ^ 31 → toInt32 (.fin n m e) = (BitVec.ofInt 32 (if n then -(k : Int) else k), {})) ∧
      (2 ^ 31 < k → toInt32 (.fin n m e) = ((if n then 0x80000000 else 0x7FFFFFFF), { inv := true })))) ∧
   (∀ (f16 n : Bool) (a : Val) (m u : Nat) (e : Int), u < 2 ^ 24 →
     (2 ^ 24 ≤ truncAt m e (-24) → dropRes f16 a (.fin false m e) {} u = (divV f16 a (.fin false m e))) ∧
     (dropRes f16 a (.fin true m e) {} u).1 = (mulV a (.fin false 0 0)).1 ∧ (mulV (.inf n) (.fin false 0 0)) = (.nan, { inv := true })) ∧
   (∀ (v : Val) (l : List Val), let w := pickGo true l 1 v 0
     (v :: l)[w.2]? = some w.1 ∧ (∀ x ∈ (v :: l).take w.2, w.1.isNan = true → x.isNan = false) ∧
       (w.1.isNan = false → ∀ x ∈ v :: l, x.isNan = false)) ∧
   (∀ (mx : Bool) (v : Val) (l : List Val), (∀ x ∈ l, x = v) → pickGo mx l 1 v 0 = (v, 0))) ∧
  (∀ (s : State) (c : CoreIx) (q : VxItem) (qs : List VxItem) (retry : Bool) (v : View) (outP inP dir : Nat) (sent : Bool) (got : Option Held), pmActive s = true →
     let k := getCore s c.val
     let sends := (if dir = 0 ∨ dir = 2 then q.o.rank > 0 else q.o.rank + 1 < q.o.ncores) ∧ (haloBorder v.d dir).2.2.2 ≠ 0
     let receives := (if dir = 0 ∨ dir = 2 then q.o.rank + 1 < q.o.ncores else q.o.rank > 0) ∧ (haloBorder v.d dir).2.2.2 ≠ 0
     let strip := haloStrip v.d dir (haloBorder v.d dir).2.2.1
     let lone := ∀ (i j : Nat) (x y : List Int), strip[i]? = some x → strip[j]? = some y → i ≠ j → Apart (vAddr v x) (dSize v.d) (vAddr v y) (dSize v.d)
     k.vq = q :: qs → earlier k q.o.seq = none → q.op = .halo v outP inP dir sent got →
     (sent = false → sends → tfind k.outs outP ≠ none → exec (.vectorQueueStart c retry) s = .next (setCore s c.val (k.count 0x034 1))) ∧
     (sent = false → sends → tfind k.outs outP = none → ∃ t, exec (.vectorQueueStart c retry) s = .next t ∧
       (getCore t c.val).vq = { q with op := .halo v outP inP dir true got } :: qs ∧
       tfind (getCore t c.val).outs outP =
         some ⟨q.o.uid, ⟨q.o.tag, q.o.ctx, .tile (dFmt v.d == 1) (haloShape v.d dir).1 (haloShape v.d dir).2 (haloBytes k v dir)⟩⟩ ∧
       { getCore t c.val with vq := [], outs := [] } = { k with vq := [], outs := [] } ∧ OnlyCore s t c.val) ∧
     ((sent = true ∨ ¬ sends) → ¬ receives → ∃ t, exec (.vectorQueueStart c retry) s = .next t ∧ (getCore t c.val).vq = qs ∧
       (∀ a, (∀ i ∈ strip, ¬((vAddr v i).toNat ≤ a ∧ a < (vAddr v i).toNat + dSize v.d)) →
         mread (getCore t c.val).sram a = mread k.sram a) ∧
       (lone → ∀ x ∈ strip, mreads (getCore t c.val).sram (vAddr v x).toNat (dSize v.d) = leBytes (dSize v.d) (dPad v.d).toNat) ∧
       (getCore t c.val).outs = k.outs ∧ (getCore t c.val).stores = k.stores ∧ OnlyCore s t c.val) ∧
     ((sent = true ∨ ¬ sends) → receives → haloTake { k with vq := qs } q.o inP got = none → exec (.vectorQueueStart c retry) s = .next s) ∧
     (∀ k1 sl a rows cols, (sent = true ∨ ¬ sends) → receives → haloTake { k with vq := qs } q.o inP got = some (k1, .tile sl a rows cols) →
       (rows = (haloShape v.d dir).1 ∧ cols = (haloShape v.d dir).2 → ∃ t, exec (.vectorQueueStart c retry) s = .next t ∧ (getCore t c.val).vq = qs ∧
         (lone → dFmt v.d < 2 → ∀ (j : Nat) (x : List Int), strip[j]? = some x → mreads (getCore t c.val).sram (vAddr v x).toNat (dSize v.d) =
           ((frameRead k.sram (dFmt v.d == 1) a rows cols).drop (j * dSize v.d)).take (dSize v.d)) ∧
         (∀ b, (∀ i ∈ strip, ¬((vAddr v i).toNat ≤ b ∧ b < (vAddr v i).toNat + dSize v.d)) → mread (getCore t c.val).sram b = mread k.sram b) ∧
         (getCore t c.val).outs = k.outs ∧ OnlyCore s t c.val) ∧
       (¬ (rows = (haloShape v.d dir).1 ∧ cols = (haloShape v.d dir).2) → (ctxOf k q.o.ctx).stn ≠ none → inP < 65536 →
         ∃ t, exec (.vectorQueueStart c retry) s = .next t ∧ (getCore t c.val).vq = qs ∧ (getCore t c.val).sram = k.sram ∧
           bit (coreReg (getCore t c.val) 0x004) 0 = true ∧ (bit (coreReg k 0x004) 0 = false →
             fld (coreReg (getCore t c.val) 0x008) 7 0 = 0x06 ∧ fld (coreReg (getCore t c.val) 0x00C) 31 16 = inP))))

/-- R163, R164, R166, R184: the first NaN report of a partition is recorded and raises the interrupt, later ones are counted; a report that waits gets
its answer, and a recorded one of a halting partition sets the firing's NaN trap.

R238: a step-overflow report sets the flag of the open step or of the next, or is counted as stale. -/
def Obligations.NumericReports : Prop :=
  ((∀ (s : State) (c : CoreIx) (r : NanReport) (rs : List NanReport), pmActive s = true → (getCore s c.val).reports = r :: rs →
     ∃ t, exec (.nanReport c) s = .next t ∧ (getCore t c.val).reports = rs ∧
       (getCore t c.val).firings = (getCore s c.val).firings ∧
       (bit (partReg (getPart s r.part) 0x144) 31 = false →
         bit (partReg (getPart t r.part) 0x144) 31 = true ∧ fld (partReg (getPart t r.part) 0x144) 26 18 = r.pc.toNat ∧
         bit (partReg (getPart t r.part) 0x144) 30 = r.vec ∧ fld (partReg (getPart t r.part) 0x148) 15 0 = r.tag.toNat ∧
         partReg (getPart t r.part) 0x14C = w32 r.elem ∧ partReg (getPart t r.part) 0x150 = partReg (getPart s r.part) 0x150 ∧
         bit (partReg (getPart t r.part) 0x40) 1 = true) ∧
       (bit (partReg (getPart s r.part) 0x144) 31 = true →
         partReg (getPart t r.part) 0x144 = partReg (getPart s r.part) 0x144 ∧ partReg (getPart t r.part) 0x148 = partReg (getPart s r.part) 0x148 ∧
         partReg (getPart t r.part) 0x14C = partReg (getPart s r.part) 0x14C ∧
         (partReg (getPart t r.part) 0x150).toNat = min 0xFFFFFFFF ((partReg (getPart s r.part) 0x150).toNat + 1))) ∧
   (∀ (s : State) (c : CoreIx) (a : NanAnswer) (as : List NanAnswer), pmActive s = true → (getCore s c.val).answers = a :: as →
     ∃ t, exec (.nanAnswer c) s = .next t ∧ (getCore t c.val).answers = as ∧ OnlyCore s t c.val ∧
       (a.recorded = true → a.halt = true → ∀ n r, (getCore s c.val).firings.find? (fun f => f.2.uid == a.uid) = some (n, r) →
         ∃ r', tfind (getCore t c.val).firings n = some r' ∧ r' = { r with nan := some (BitVec.ofNat 16 a.elem) }) ∧
       (a.recorded = false ∨ a.halt = false → (getCore t c.val).firings = (getCore s c.val).firings))) ∧
  (∀ (s : State) (c : CoreIx) (p : Nat) (n : BitVec 16) (rs : List (Nat × BitVec 16)), pmActive s = true → (getCore s c.val).overflows = (p, n) :: rs →
     ∃ t, exec (.stepOverflowReport c) s = .next t ∧ (getCore t c.val).overflows = rs ∧
       { getCore t c.val with overflows := [] } = { getCore s c.val with overflows := [] } ∧
       let st := partReg (getPart s p) 0x114
       let st' := partReg (getPart t p) 0x114
       (bit st 16 = true → n = st.setWidth 16 → bit st' 17 = true ∧ bit st' 18 = bit st 18) ∧
       (bit st 16 = true → n = st.setWidth 16 + 1 → bit st' 18 = true ∧ bit st' 17 = bit st 17) ∧
       (bit st 16 = false → st' = st ∧ fld (partReg (getPart t p) 0x11C) 15 0 = min 0xFFFF (fld (partReg (getPart s p) 0x11C) 15 0 + 1)))

/-- R82 to R84, R259: the answer of a sync operation: faa and ld write rd, wait and bar set p[pd]; a refusal raises SYNC_FAULT with the refusal code,
and neither rd nor p[pd] is written.

R83, R25, R260: a wait whose timeout expires goes on with p[pd] = 0, unless its answer has arrived; a wait without limit never does. -/
def Obligations.SyncAnswers : Prop :=
  (∀ (s : State) (c : CoreIx) (id : RunId) (r : Run) (w : SyncWait) (a : SyncRsp), pmActive s = true → runOf (getCore s c.val) id = some r → r.phase = .sync w →
     answerFor (getCore s c.val) r = some a → HasNext r →
     (∀ v, a.ans = .val v → (w.op = .faa ∨ w.op = .ld) → MayWrite id w.rd →
       ∃ t, exec (.syncResponse c id) s = .next t ∧ readS t c id w.rd = v ∧ (∀ n, n ≠ w.rd → readS t c id n = readS s c id n) ∧
         (∀ n, readP t c id n = readP s c id n) ∧ Resumed s t c id r) ∧
     (∀ v, a.ans = .val v → (w.op = .wait ∨ w.op = .bar) →
       ∃ t, exec (.syncResponse c id) s = .next t ∧ readP t c id w.pd = true ∧ (∀ n, n ≠ w.pd → readP t c id n = readP s c id n) ∧
         (∀ n, readS t c id n = readS s c id n) ∧ Resumed s t c id r) ∧
     (∀ code, a.ans = .refused code → code < 65536 → bit (coreReg (getCore s c.val) 0x004) 0 = false →
       ∃ t, exec (.syncResponse c id) s = .next t ∧ bit (coreReg (getCore t c.val) 0x004) 0 = true ∧
         fld (coreReg (getCore t c.val) 0x008) 7 0 = 0x0A ∧ fld (coreReg (getCore t c.val) 0x00C) 31 16 = code ∧
         (∀ n, readS t c id n = readS s c id n) ∧ (∀ n, readP t c id n = readP s c id n))) ∧
  (∀ (s : State) (c : CoreIx) (id : RunId) (r : Run) (w : SyncWait), pmActive s = true → runOf (getCore s c.val) id = some r → r.phase = .sync w →
     (w.timed = false → exec (.syncTimeout c id) s = .next s) ∧
     ((∃ a ∈ (getCore s c.val).syncRsps, a.uid = r.uid ∧ a.tid = w.tid) → exec (.syncTimeout c id) s = .next s) ∧
     (w.timed = true → (w.op = .wait ∨ w.op = .bar) → (∀ a ∈ (getCore s c.val).syncRsps, ¬(a.uid = r.uid ∧ a.tid = w.tid)) → HasNext r →
       ∃ t, exec (.syncTimeout c id) s = .next t ∧ readP t c id w.pd = (w.pd == 0) ∧ (∀ n, n ≠ w.pd → readP t c id n = readP s c id n) ∧
         (∀ n, readS t c id n = readS s c id n) ∧ Resumed s t c id r))

/-- R409, R120, R133: a token that has crossed to a switch: an invalid route entry or a side that is no source discards it and counts it, a valid one queues
it behind the tokens of its slot; a token of a context that is not active waits while 16 such tokens stand on its side and net.

R409, R114, R122: the same at the local side: the token of the lowest core whose out port is bound to the slot leaves the port and is queued.

R120, R122: one cycle of a switch: the granted transfers are those of ready slots, one for each slot, and no two share an output side; a ready
slot that is not granted shares a side with one that is. Each leaves its queue; one with a single destination side stands at the far switch, one with
the local side alone goes to its one consumer; the rotation goes on from the slot granted first.

R127 to R130: a steering unit sends a complete pair out: the first, in the order in which they completed, that has room: STEER to OUT_A or OUT_B by
the control value, MERGE the input that the control value names; a unit that merges two tokens of one tag stops. A head that finds its store full is
counted. -/
def Obligations.SwitchTokens : Prop :=
  (∀ (s : State) (cl : ClIx) (side : Side) (net : Net) (slot : Fin 32) (tok : Token) (ts : List Token), side ≠ .loc →
     let k := getCl s cl.val
     let key := qkey (Side.num side) (Net.num net) slot.val
     let r := route k tok.ctx (Net.num net) slot.val
     let late := tok.isSect = false ∧ tok.ctx ≠ swCtx k ∧ k.sw = none
     pmActive s = true → tget k.cross key [] = tok :: ts →
     (rtValid r = false ∨ rtSrc r (Side.num side) = false → ∃ t, exec (.switchTokenArrival cl side net slot) s = .next t ∧
       tget (getCl t cl.val).cross key [] = ts ∧ (getCl t cl.val).queues = k.queues ∧
       clReg (getCl t cl.val) 0x108 = clReg k 0x108 + 1 ∧ bit (clReg (getCl t cl.val) 0x104) 4 = true ∧ bit (clReg (getCl t cl.val) 0x104) 6 = true ∧
       (rtValid r = true → bit (partReg (getPart t (rtPid r)) 0x40) 2 = true)) ∧
     (rtValid r = true → rtSrc r (Side.num side) = true → tok.isSect = true → rtSect r = false → ∃ t, exec (.switchTokenArrival cl side net slot) s = .next t ∧
       tget (getCl t cl.val).cross key [] = ts ∧ (getCl t cl.val).queues = k.queues ∧ clReg (getCl t cl.val) 0x10C = clReg k 0x10C + 1) ∧
     (rtValid r = true → rtSrc r (Side.num side) = true → (tok.isSect = true → rtSect r = true) → ¬ late → k.sw = none →
       ∃ t, exec (.switchTokenArrival cl side net slot) s = .next t ∧ tget (getCl t cl.val).cross key [] = ts ∧
         tget (getCl t cl.val).queues key [] = tget k.queues key [] ++ [tok] ∧
         (∀ j, j ≠ key → tget (getCl t cl.val).queues j [] = tget k.queues j []) ∧ (getCl t cl.val).regs = k.regs ∧ t.cores = s.cores ∧ t.parts = s.parts) ∧
     (rtValid r = true → rtSrc r (Side.num side) = true → late → 16 ≤ heldCount k (Side.num side) (Net.num net) (fun c => c != swCtx k) →
       exec (.switchTokenArrival cl side net slot) s = .next s)) ∧
  (∀ (s : State) (cl : ClIx) (net : Net) (slot : Fin 32) (c port : Nat) (tok : Token),
     let k := getCl s cl.val
     let key := qkey 4 (Net.num net) slot.val
     let r := route k tok.ctx (Net.num net) slot.val
     pmActive s = true → localSource s cl.val (Net.num net) slot.val = some (.core c port tok) → (tget k.queues key []).length < 2 →
     rtValid r = true → rtSrc r 4 = true → tok.isSect = false → tok.ctx = swCtx k →
     ∃ t, exec (.switchTokenArrival cl .loc net slot) s = .next t ∧ tfind (getCore t c).outs port = none ∧
       (∀ m, m ≠ port → tfind (getCore t c).outs m = tfind (getCore s c).outs m) ∧
       tget (getCl t cl.val).queues key [] = tget k.queues key [] ++ [tok] ∧ (∀ d, d ≠ c → getCore t d = getCore s d)) ∧
  (∀ (s : State) (cl : ClIx) (net : Net), pmActive s = true →
     let k := getCl s cl.val
     let n := Net.num net
     let order := rotation n (tget k.rot n (netSlots n - 1))
     let gs := cycleGrants s cl.val n
     gs.Pairwise (fun a b => a.slot ≠ b.slot ∧ ∀ d, d < 5 → ¬(rtDst a.rt d = true ∧ rtDst b.rt d = true)) ∧
     (∀ g ∈ gs, g.slot ∈ order ∧ readySide s cl.val n g.slot = some (g.side, g.tok) ∧ g.rt = route k g.tok.ctx n g.slot ∧
       g.cs = consumers s cl.val g.tok.ctx n g.slot (rtPid g.rt) ∧ g.tok.ctx = swCtx k ∧ g.tok.isSect = false ∧
       g.tok ∈ tget k.queues (qkey g.side n g.slot) []) ∧
     (∀ slot ∈ order, ∀ side tok, readySide s cl.val n slot = some (side, tok) → (∀ g ∈ gs, g.slot ≠ slot) →
       ∃ g ∈ gs, ∃ d, d < 5 ∧ rtDst g.rt d = true ∧ rtDst (route k tok.ctx n slot) d = true) ∧
     ((∀ slot ∈ order, readySide s cl.val n slot = none) → exec (.switchForward cl net) s = .next s) ∧
     (∀ g0, gs.head? = some g0 → ∃ t, exec (.switchForward cl net) s = .next t ∧ tget (getCl t cl.val).rot n 0 = g0.slot ∧
       ∀ g ∈ gs,
         (∀ d nb, d < 4 → neighbour cl.val d = some nb → rtDst g.rt d = true → (∀ e, e < 5 → e ≠ d → rtDst g.rt e = false) →
           tget (getCl t nb).cross (qkey (opposite d) n g.slot) [] = tget (getCl s nb).cross (qkey (opposite d) n g.slot) [] ++ [g.tok] ∧
           tget (getCl t cl.val).queues (qkey g.side n g.slot) [] = (tget k.queues (qkey g.side n g.slot) []).erase g.tok) ∧
         (∀ c port, rtDst g.rt 4 = true → (∀ e, e < 4 → rtDst g.rt e = false) → g.cs = [.core c port] →
           tget (getCore t c).arrivals port [] = tget (getCore s c).arrivals port [] ++ [g.tok] ∧
           tget (getCl t cl.val).queues (qkey g.side n g.slot) [] = (tget k.queues (qkey g.side n g.slot) []).erase g.tok))) ∧
  (∀ (s : State) (cl : ClIx) (u : Fin 16), pmActive s = true →
     let k := getCl s cl.val
     let ctx := swCtx k
     let w := steer k ctx u.val
     let x := unitOf k u.val
     let free := fun (p : SPair) => !(x.out.any (fun o => o.1 == p.out))
     bit w 0 = true → swEnabled k ctx = true → ctx < 4 → x.stopped.getLsbD ctx = false →
     (mergeDup x w ctx = true → ∃ t, exec (.steeringPair cl u) s = .next t ∧ (unitOf (getCl t cl.val) u.val).stopped.getLsbD ctx = true ∧
       bit (clReg (getCl t cl.val) 0x104) 5 = true ∧ bit (clReg (getCl t cl.val) 0x110) u.val = true) ∧
     (mergeDup x w ctx = false → (∃ p ∈ unitPairs x w ctx, free p = true) →
       ∃ t p, exec (.steeringPair cl u) s = .next t ∧ p ∈ unitPairs x w ctx ∧ free p = true ∧
         (∀ q, (x.ready.filter (fun q => (unitPairs x w ctx).contains q)).find? free = some q → p = q) ∧
         (unitOf (getCl t cl.val) u.val).out = x.out ++ [(p.out, { p.d with ctx := ctx })] ∧
         (stMode w = 0 → ∃ c, p.c = some c ∧ c.tag = p.d.tag ∧ p.fromB = false ∧ p.out = if c.ctlOn then stOutA w else stOutB w) ∧
         (stMode w = 1 → ∃ c, p.c = some c ∧ c.tag = p.d.tag ∧ p.fromB = c.ctlOn ∧ p.out = stOutA w) ∧
         (stMode w = 2 → p.c = none ∧ p.out = stOutA w) ∧
         (getCl t cl.val).queues = k.queues ∧ (∀ o, o ≠ 0x140 + 4 * u.val → clReg (getCl t cl.val) o = clReg k o) ∧ t.cores = s.cores ∧
         (∀ d, d ≠ cl.val → getCl t d = getCl s d)) ∧
     (∀ t, mergeDup x w ctx = false → exec (.steeringPair cl u) s = .next t →
       clReg (getCl t cl.val) (0x140 + 4 * u.val) = clReg k (0x140 + 4 * u.val) + (if (unitCycle x w ctx).2 then 1 else 0)))

/-- R131, R132, R135, R120, R409: a section token behind no token of its context waits while a switch is in progress or a side in DST lacks credit; else it
leaves its queue and is forwarded to every side in DST, a copy to each core bound to the slot. One of another context, or that names the active
one, is then counted, and no more. Else the switch goes over: DRAIN waits, PARK with room switches at once and with more than 16 tokens held on a
side and net goes on as DRAIN, DROP discards the tokens of the old context, counts them in CL_SW_DROP and, where there was one, sets DROPPED and
raises the interrupt. That a queued section token is no token of CTX for DROP and DRAIN (log 145), and that a steering unit does not act on its
copy (log 112), are the model's readings.

R132, R131: the drain ends once the switch holds no data token of the old context: the new context is active and SEQ is recorded. That
queued section tokens do not hold it up is the model's reading (log 145). -/
def Obligations.SwitchSections : Prop :=
  (∀ (s : State) (cl : ClIx) (side : Side) (slot : Fin 16) (tok : Token) (mode new : Nat) (seq : BitVec 16), pmActive s = true →
     let k := getCl s cl.val
     let key := qkey (Side.num side) 2 slot.val
     let queue := tget k.queues key []
     let r := route k tok.ctx 2 slot.val
     let cs := consumers s cl.val tok.ctx 2 slot.val (rtPid r)
     let credit := ∀ d, d < 5 → rtDst r d = true → sideCredit s cl.val 2 slot.val d cs = true
     queue.find? Token.isSect = some tok → (∀ u ∈ queue.takeWhile (fun u => !u.isSect), u.ctx ≠ tok.ctx) → tok.body = .sect mode new seq →
     swEnabled k tok.ctx = true → new < 4 →
     (k.sw ≠ none ∨ ¬ credit → exec (.sectionToken cl side slot) s = .next s) ∧
     (k.sw = none → credit → ∃ t, exec (.sectionToken cl side slot) s = .next t ∧
       (∀ d nb, d < 4 → neighbour cl.val d = some nb → rtDst r d = true →
         tget (getCl t nb).cross (qkey (opposite d) 2 slot.val) [] = tget (getCl s nb).cross (qkey (opposite d) 2 slot.val) [] ++ [tok]) ∧
       (∀ c port, rtDst r 4 = true → Consumer.core c port ∈ cs → tget (getCore t c).arrivals port [] = tget (getCore s c).arrivals port [] ++ [tok]) ∧
       (tok.ctx ≠ swCtx k ∨ new = swCtx k → tget (getCl t cl.val).queues key [] = queue.erase tok ∧ clReg (getCl t cl.val) 0x10C = clReg k 0x10C + 1 ∧
         (getCl t cl.val).sw = none ∧ swCtx (getCl t cl.val) = swCtx k ∧ (getCl t cl.val).units = k.units) ∧
       (tok.ctx = swCtx k → new ≠ swCtx k →
         let full := ∃ i, i < 15 ∧ 16 < heldCount k (i / 3) (i % 3) (fun c => c == tok.ctx)
         (mode = 0 ∨ mode = 1 ∧ full → tget (getCl t cl.val).queues key [] = queue.erase tok ∧ swCtx (getCl t cl.val) = swCtx k ∧
           (getCl t cl.val).sw = some { pid := rtPid r, mode := mode, old := swCtx k, new := new, seq := seq } ∧ (getCl t cl.val).units = k.units) ∧
         (mode = 1 ∧ ¬ full → tget (getCl t cl.val).queues key [] = queue.erase tok ∧ (getCl t cl.val).sw = none ∧ swCtx (getCl t cl.val) = new ∧
           fld (clReg (getCl t cl.val) 0x104) 31 16 = seq.toNat ∧ (getCl t cl.val).units = k.units) ∧
         (mode = 2 → (rtDst r 4 = true → cs ≠ []) →
           let keep := fun (u : Token) => u.isSect || u.ctx != tok.ctx
           let n := (purge k keep).2
           (∀ j, tget (getCl t cl.val).queues j [] = (if j = key then queue.erase tok else tget k.queues j []).filter keep) ∧
           (purge (getCl t cl.val) keep).2 = 0 ∧ (getCl t cl.val).sw = none ∧ swCtx (getCl t cl.val) = new ∧
           fld (clReg (getCl t cl.val) 0x104) 31 16 = seq.toNat ∧ clReg (getCl t cl.val) 0x108 = clReg k 0x108 + w32 n ∧
           bit (clReg (getCl t cl.val) 0x104) 4 = (bit (clReg k 0x104) 4 || decide (0 < n)) ∧
           bit (partReg (getPart t (rtPid r)) 0x40) 2 = (bit (partReg (getPart s (rtPid r)) 0x40) 2 || decide (0 < n)))))) ∧
  (∀ (s : State) (cl : ClIx) (w : SwSwitch), pmActive s = true →
     let k := getCl s cl.val
     k.sw = some w → w.new < 4 →
     ((purge k (fun t => t.isSect || t.ctx != w.old)).2 > 0 → exec (.switchDrainEnd cl) s = .next s) ∧
     ((purge k (fun t => t.isSect || t.ctx != w.old)).2 = 0 → ∃ t, exec (.switchDrainEnd cl) s = .next t ∧ (getCl t cl.val).sw = none ∧
       swCtx (getCl t cl.val) = w.new ∧ fld (clReg (getCl t cl.val) 0x104) 31 16 = w.seq.toNat ∧ (getCl t cl.val).queues = k.queues ∧
       (getCl t cl.val).units = k.units ∧ t.cores = s.cores ∧ (∀ d, d ≠ cl.val → getCl t d = getCl s d)))

/-- R205, R109, R41: a free channel takes the next request of its rotation from a core's queue, or the ring's next entry; a copy that needs no LPDDR6 page and
no host sector is then in progress as it was asked for; a bad entry stops the ring with the error ENTRY.

R225, R194, R211: the next parameter record of a request is fetched, or its failure ends the request; an uncorrectable burst in it poisons its unit. -/
def Obligations.RollerRequests : Prop :=
  (∀ (s : State) (cl : ClIx) (ch : Fin 4) (n : Nat), pmActive s = true →
     let k := getCl s cl.val
     (getChan k ch.val).job = none → nextSource s cl.val ch.val = some n →
     (∀ r rs, n < 32 → tget (getCore s (cl.val * 32 + n)).rq ch.val [] = r :: rs →
       ∃ t, exec (.rollerRequestTaken cl ch) s = .next t ∧ tget (getCore t (cl.val * 32 + n)).rq ch.val [] = rs ∧
         (∀ j, j ≠ ch.val → tget (getCore t (cl.val * 32 + n)).rq j [] = tget (getCore s (cl.val * 32 + n)).rq j []) ∧
         (getChan (getCl t cl.val) ch.val).last = n ∧ (∀ d, d ≠ cl.val * 32 + n → getCore t d = getCore s d) ∧
         (let a := if r.op = .st then r.l else r.r
          let b := if r.op = .st then r.r else r.l
          dSpace a.d ≤ 1 → dSpace b.d ≤ 1 → (dSpace a.d = 1 → belowSpace a = false) → (dSpace b.d = 1 → belowSpace b = false) →
           ∃ j, (getChan (getCl t cl.val) ch.val).job = some j ∧ j.core = some (cl.val * 32 + n) ∧ j.op = r.op ∧ j.a = a ∧ j.b = b ∧ j.o = r.o ∧
             j.pages = [] ∧ j.tags = [] ∧ j.body = true ∧ j.merged = false ∧ j.done = false ∧ t.mesh = s.mesh ∧ (getCl t cl.val).staging = k.staging)) ∧
     (n = 32 → (ringEntry (mreads k.staging (fld (clReg k (0x1824 + 0x10 * ch.val)) 22 0 + 192 * ringHead k ch.val) 192)).bad = true →
       ∃ t, exec (.rollerRequestTaken cl ch) s = .next t ∧ (getChan (getCl t cl.val) ch.val).job = none ∧ bit (getCl t cl.val).ringBad ch.val = true ∧
         ringHead (getCl t cl.val) ch.val = ringHead k ch.val ∧ (getCl t cl.val).staging = k.staging ∧
         (bit (clReg k 0x1800) 31 = false → fld (clReg (getCl t cl.val) 0x1800) 7 0 = 0x07 ∧ bit (clReg (getCl t cl.val) 0x1800) 31 = true) ∧
         bit (partReg (getPart t (ringPid k ch.val)) 0x40) 4 = true)) ∧
  (∀ (s : State) (cl : ClIx) (ch : Fin 4) (j : Job) (o : List Int), pmActive s = true →
     let k := getCl s cl.val
     (getChan k ch.val).job = some j → j.fill = false → dParam j.a.d = true → (walkOuter j.a.d)[j.params.length]? = some o →
     (∀ b, paramFetch s { pid := j.pid, cl := cl.val, stn := false } (outerAddr j.a o).toNat = .ok b →
       ∃ t, exec (.paramRead cl ch .clean) s = .next t ∧ (getChan (getCl t cl.val) ch.val).job = some { j with params := j.params ++ [b] } ∧
         (∀ d, d ≠ cl.val → getCl t d = getCl s d) ∧ t.cores = s.cores ∧ t.mcs = s.mcs) ∧
     (∀ f, paramFetch s { pid := j.pid, cl := cl.val, stn := false } (outerAddr j.a o).toNat = .error f → j.core ≠ none →
       ∃ t, exec (.paramRead cl ch .clean) s = .next t ∧ (getChan (getCl t cl.val) ch.val).job = none ∧ t.cores = s.cores) ∧
     (∀ (e : BitVec 128), let a := (outerAddr j.a o).toNat
       j.core ≠ none → a % 0x4000 = 0 → pageOf s j.pid 2 a = some e → paramRanges s { pid := j.pid, cl := cl.val, stn := false } a = [(a, 4)] →
       (getMc s (ptPkg e)).poison.length < 256 → pageRefusal s j.pid 2 a false = none →
       ∃ t, exec (.paramRead cl ch ⟨[⟨0, false⟩]⟩) s = .next t ∧ (getChan (getCl t cl.val) ch.val).job = none ∧
         (ptFrame e, a % 2 ^ 21 / 256) ∈ (getMc t (ptPkg e)).poison ∧ t.cores = s.cores))

/-- R108, R410, R95, R192, R194, R214 to R216: a core's transfer ends: the elements of the source stand, in walk order, at the positions of the destination, and of the
destination nothing else changes; the channel is free and the access has left the table. A transfer into core SRAM leaves every tier, one into staging
SRAM, LPDDR6 or the host tier leaves the core's SRAM; bytes for a failed sub-channel are discarded; a host sector is stored whole under the key of its slot.
One that waits behind an earlier access, or on a page that is being re-encrypted (R218), or for a function that may not send (R301), stays. -/
def Obligations.RollerTransfers : Prop :=
  ∀ (s : State) (cl : ClIx) (ch : Fin 4) (j : Job) (c : Nat) (cargo : Cargo), pmActive s = true →
    let k := getCl s cl.val
    let w : Who := { pid := j.pid, cl := cl.val, stn := false }
    let ws := storeList j cargo
    let alone := fun (x : Nat × List Byte) => ∀ y ∈ ws, y ≠ x → x.1 + x.2.length ≤ y.1 ∨ y.1 + y.2.length ≤ x.1
    let ended := fun (t : State) => (getChan (getCl t cl.val) ch.val).job = none ∧ (getCore t c).accs = (getCore s c).accs.filter (fun a => a.seq != j.o.seq) ∧
      (∀ d, d ≠ c → getCore t d = getCore s d)
    let clean := s.hub.hccDirty.all (fun d => !(d.2.any (dirtyHit s d.1 w (dSpace j.b.d) ws))) = true
    (getChan k ch.val).job = some j → jobReady j = true → j.core = some c → loadCargo s w j = .ok cargo →
    (sweepHolds s j = true ∨ dSpace j.b.d = 3 ∧ hostOpen s j.pid = false → exec (.rollerTransferDone cl ch) s = .next s) ∧
    (j.fill = false → dComp j.a.d = false → dParam j.a.d = false → dComp j.b.d = false → dFmt j.a.d = dFmt j.b.d →
      ∀ (n : Nat) (p q : Pos), (walkReal j.b.d)[n]? = some p → (walkReal j.a.d)[n]? = some q → ∃ x ∈ ws, x.1 = (vAddr j.b p.i).toNat ∧
        (if dSpace j.a.d = 0 then x.2 = mreads (getCore s c).sram (vAddr j.a q.i).toNat (dSize j.a.d)
         else tierRead s w (dSpace j.a.d) (vAddr j.a q.i).toNat (dSize j.a.d) = .ok x.2)) ∧
    (sweepHolds s j = false → earlier (getCore s c) j.o.seq = none →
      (dSpace j.b.d = 0 → ∃ t, exec (.rollerTransferDone cl ch) s = .next t ∧ ended t ∧ (∀ x ∈ ws, alone x → mreads (getCore t c).sram x.1 x.2.length = x.2) ∧
        (∀ a, (∀ x ∈ ws, ¬(x.1 ≤ a ∧ a < x.1 + x.2.length)) → mread (getCore t c).sram a = mread (getCore s c).sram a) ∧
        (getCore t c).banks = (getCore s c).banks ∧ (getCl t cl.val).staging = k.staging ∧ t.mcs = s.mcs) ∧
      (dSpace j.b.d = 1 → writeFail s w 1 ws = none → clean → ∃ t, exec (.rollerTransferDone cl ch) s = .next t ∧ ended t ∧ (getCore t c).sram = (getCore s c).sram ∧
        (∀ x ∈ ws, alone x → mreads (getCl t cl.val).staging x.1 x.2.length = x.2) ∧
        (∀ a, (∀ x ∈ ws, ¬(x.1 ≤ a ∧ a < x.1 + x.2.length)) → mread (getCl t cl.val).staging a = mread k.staging a) ∧ t.mcs = s.mcs) ∧
      (dSpace j.b.d = 2 → writeFail s w 2 ws = none → clean →
        (∀ a b e f, pageOf s j.pid 2 a = some e → pageOf s j.pid 2 b = some f → ptPkg e = ptPkg f → ptFrame e = ptFrame f → a / 2 ^ 21 = b / 2 ^ 21) →
        ∃ t, exec (.rollerTransferDone cl ch) s = .next t ∧ ended t ∧ (getCore t c).sram = (getCore s c).sram ∧ (getCl t cl.val).staging = k.staging ∧
          (∀ x ∈ ws, alone x → ∀ (i : Nat) (b : Byte) e, x.2[i]? = some b → pageOf s j.pid 2 (x.1 + i) = some e →
            subDown (getMc s (ptPkg e)) (ptFrame e) ((x.1 + i) % 2 ^ 21 / 256) = false →
            mread (frameMem (getMc t (ptPkg e)) (ptFrame e)) ((x.1 + i) % 2 ^ 21) = b) ∧
          (∀ m f a, (∀ x ∈ ws, ∀ i e, i < x.2.length → pageOf s j.pid 2 (x.1 + i) = some e →
              subDown (getMc s (ptPkg e)) (ptFrame e) ((x.1 + i) % 2 ^ 21 / 256) = false → ¬(ptPkg e = m ∧ ptFrame e = f ∧ (x.1 + i) % 2 ^ 21 = a)) →
            mread (frameMem (getMc t m) f) a = mread (frameMem (getMc s m) f) a)) ∧
      (dSpace j.b.d = 3 → hostOpen s j.pid = true → writeFail s w 3 ws = none → (j.merged = true ∨ partSectors ws = []) →
        (∀ a b e f, pageOf s j.pid 3 a = some e → pageOf s j.pid 3 b = some f → ptHaddr e = ptHaddr f → a / 2 ^ 21 = b / 2 ^ 21) →
        ∃ t, exec (.rollerTransferDone cl ch) s = .next t ∧ ended t ∧ (getCore t c).sram = (getCore s c).sram ∧ (getCl t cl.val).staging = k.staging ∧ t.mcs = s.mcs ∧
          (∀ x ∈ ws, alone x → ∀ (i : Nat) (b : Byte) e n, x.2[i]? = some b → pageOf s j.pid 3 (x.1 + i) = some e → keySlot s j.pid (ptEpoch e) = some n →
            ∃ h, sectorOf t j.pid (x.1 + i) e n = some h ∧ mread h.data ((x.1 + i) % 512) = b ∧ sectorMsg h ∈ t.outbox)))

/-- R208, R209: a ring entry whose bytes are written: its sync operation goes out first; then HEAD moves to the next entry, IDLE is 1, and the completion
interrupt is raised where the entry asks for it. -/
def Obligations.RingEntries : Prop :=
  ∀ (s : State) (cl : ClIx) (ch : Fin 4) (j : Job), pmActive s = true →
    let k := getCl s cl.val
    let stat := 0x182C + 0x10 * ch.val
    (getChan k ch.val).job = some j → j.core = none → j.done = true → ringLog k ch.val ≤ 12 →
    (j.sync = none ∨ (j.synSent = true ∧ ∃ v, j.syn = some (.val v)) →
      ∃ t, exec (.ringEntryComplete cl ch) s = .next t ∧ (getChan (getCl t cl.val) ch.val).job = none ∧
        ringHead (getCl t cl.val) ch.val = (ringHead k ch.val + 1) % 2 ^ ringLog k ch.val ∧ bit (clReg (getCl t cl.val) stat) 12 = true ∧
        (j.irq = true → bit (partReg (getPart t j.pid) 0x40) 3 = true) ∧ (j.irq = false → t.parts = s.parts) ∧
        (getCl t cl.val).staging = k.staging ∧ t.cores = s.cores) ∧
    (∀ name add o, j.sync = some (name, add) → j.synSent = false → objOf name = some o →
      ∃ t, exec (.ringEntryComplete cl ch) s = .next t ∧ (getChan (getCl t cl.val) ch.val).job = some { j with synSent := true } ∧
        ringHead (getCl t cl.val) ch.val = ringHead k ch.val ∧
        ((∃ q, q.op = .faa ∧ q.obj = o ∧ q.arg = add ∧ q.pid = j.pid ∧ q.src = .ring cl.val ch.val ∧
          ((getCl t cl.val).hive.arrived = k.hive.arrived ++ [q] ∨
            t.mesh = s.mesh ++ [{ pid := q.pid, src := .cluster cl.val, dst := objNode o, tid := q.tid, body := .sync q }])))) ∧
    (j.sync ≠ none → j.synSent = true → j.syn = none → exec (.ringEntryComplete cl ch) s = .next s)

/-- R255: the effect of each operation at its object, for a core's request that is the only one: the value, the answer, the waiter entry; no other object
changes. Where the value changes, every waiter of the object that the new value satisfies, or that a new barrier generation ends, goes and is answered 1,
and every other waiter stays.

R254, R140, R84: an operation that the firewall refuses is answered with its code and leaves every object as it was.

R260: a cancel removes its waiter or its held request; where the waiter has been released, LATE counts it, for a hive. -/
def Obligations.SyncObjects : Prop :=
  ((∀ (s : State) (u : SyncUnit) (q : SyncReq) (c uid : Nat), pmActive s = true →
     OneRequest s u q → q.src = .core c uid → (unitSync s u).waiters = [] →
     let v := objVal s q.obj
     (q.op = .faa → ∃ t, exec (.syncOperation u) s = .next t ∧ objVal t q.obj = v + q.arg ∧ Answered s t c uid q (some (.val v)) ∧ SyncTook s t u q []) ∧
     (q.op = .ld → ∃ t, exec (.syncOperation u) s = .next t ∧ objVal t q.obj = v ∧ Answered s t c uid q (some (.val v)) ∧ SyncTook s t u q []) ∧
     (q.op = .st → ∃ t, exec (.syncOperation u) s = .next t ∧ objVal t q.obj = q.arg ∧ Answered s t c uid q none ∧ SyncTook s t u q []) ∧
     (q.op = .wait → q.cond.toNat < 4 →
       let holds := if q.cond = 0 then v = q.arg else if q.cond = 1 then v ≠ q.arg else if q.cond = 2 then v.toNat ≥ q.arg.toNat else v.toNat < q.arg.toNat
       ∃ t, exec (.syncOperation u) s = .next t ∧ objVal t q.obj = v ∧
         (holds → Answered s t c uid q (some (.val 1)) ∧ SyncTook s t u q []) ∧
         (¬ holds → Answered s t c uid q none ∧ SyncTook s t u q [{ q := q, gen := 0 }])) ∧
     (q.op = .bar →
       let g := v.toNat / 65536
       let a := v.toNat % 65536 + 1
       ∃ t, exec (.syncOperation u) s = .next t ∧
         (a ≥ q.arg.toNat % 65536 → objVal t q.obj = w32 ((g + 1) % 65536 * 65536) ∧ Answered s t c uid q (some (.val 1)) ∧ SyncTook s t u q []) ∧
         (a < q.arg.toNat % 65536 → objVal t q.obj = w32 (g * 65536 + a) ∧ Answered s t c uid q none ∧ SyncTook s t u q [{ q := q, gen := g }]))) ∧
   (∀ (s : State) (u : SyncUnit) (q : SyncReq) (c uid : Nat), pmActive s = true → OneRequest s u q → q.src = .core c uid →
     let v := objVal s q.obj
     let changed := fun (w : Word) => ∃ t, exec (.syncOperation u) s = .next t ∧ objVal t q.obj = w ∧ Released s t q.obj w
     (q.op = .faa → changed (v + q.arg)) ∧ (q.op = .st → changed q.arg) ∧
     (q.op = .bar → q.arg.toNat % 65536 ≤ v.toNat % 65536 + 1 → changed (w32 ((v.toNat / 65536 + 1) % 65536 * 65536))))) ∧
  (∀ (s : State) (u : SyncUnit) (q : SyncReq) (c uid code : Nat), pmActive s = true → (unitSync s u).held = [] → (unitSync s u).arrived = [q] → objUnit q.obj = u →
     storesPending s q = false → q.src = .core c uid → objRefusal s q.pid q.obj = some code →
     ∃ t, exec (.syncOperation u) s = .next t ∧ (∀ o, objVal t o = objVal s o) ∧ Answered s t c uid q (some (.refused code)) ∧
       (unitSync t u).arrived = [] ∧ (unitSync t u).waiters = (unitSync s u).waiters) ∧
  (∀ (s : State) (cl : ClIx) (src : Requester) (tid : Nat) (cs : List (Requester × Nat)), pmActive s = true →
     let y := (getCl s cl.val).hive
     y.cancels = (src, tid) :: cs →
     ((∃ q ∈ y.arrived, q.src = src ∧ q.tid = tid) → exec (.syncCancel (.hive cl)) s = .next s) ∧
     ((∀ q ∈ y.arrived, ¬(q.src = src ∧ q.tid = tid)) → ∃ t, exec (.syncCancel (.hive cl)) s = .next t ∧
       (getCl t cl.val).hive.cancels = cs ∧ (∀ w ∈ (getCl t cl.val).hive.waiters, ¬(w.q.src = src ∧ w.q.tid = tid)) ∧
       (∀ q ∈ (getCl t cl.val).hive.held, ¬(q.src = src ∧ q.tid = tid)) ∧ (getCl t cl.val).hive.arrived = y.arrived ∧
       (let gone := (∃ w ∈ y.waiters, w.q.src = src ∧ w.q.tid = tid) ∨ (∃ q ∈ y.held, q.src = src ∧ q.tid = tid)
        (gone → (getCl t cl.val).regs = (getCl s cl.val).regs) ∧
        (¬ gone → fld (clReg (getCl t cl.val) 0x1400) 31 16 = (fld (clReg (getCl s cl.val) 0x1400) 31 16 + 1) % 65536))))

/-- R254, R256, R140, R366: an accepted ENABLE of a hive object gives it to the writer with value 0; a disable answers each waiter with NOT_MAPPED; a refused MODE
clears ENABLE; a write of its value is a store that takes effect and releases waiters; a refused write is counted and logged, and changes no object. That a
register write takes effect at once, after what has arrived before it, is the model's reading (log 135).

R254, R263, R266, R382, R140, R366: the same of a port object: an ENABLE that no check refuses gives it to the writer with value 0; MODE 3, or a PROXY_HIVE whose
target names no hive object, is refused with 0x06, a proxy on a port that is not trained with 0x08, an unlocked oscillator with 0x10, and the object stays
off; a disable answers each waiter with NOT_MAPPED; a write of its value is a store, which a proxy ignores (log 135, as for a hive). -/
def Obligations.HiveObjects : Prop :=
  (∀ (s : State) (fn : Fn) (cl : ClIx) (n : Fin 128) (v : Word) (pid : Nat),
     let o : ObjRef := .hive cl n
     let cfg := clReg (getCl s cl.val) (0x1004 + n.val * 8)
     (NoOwnSyncs s (.hive cl) fn →
     (Admits s fn (.cluster cl.val) (objCfgCheck s o v) pid → bit v 16 = true → bit v 0 = true → bit cfg 0 = false → pid < 8 →
       fld v 2 1 = 0 → fld v 18 17 = 3 →
       ∃ t, exec (.hvCfgEnable fn o v) s = .next t ∧ bit (clReg (getCl t cl.val) (0x1004 + n.val * 8)) 0 = true ∧
         fld (clReg (getCl t cl.val) (0x1004 + n.val * 8)) 5 3 = pid ∧ clReg (getCl t cl.val) (0x1000 + n.val * 8) = 0 ∧
         (∀ d, d ≠ cl.val → getCl t d = getCl s d) ∧ t.cores = s.cores) ∧
     (Admits s fn (.cluster cl.val) (objCfgCheck s o v) pid → bit v 16 = true → bit v 0 = false → bit cfg 0 = true →
       ∃ t, exec (.hvCfgDisable fn o v) s = .next t ∧ bit (clReg (getCl t cl.val) (0x1004 + n.val * 8)) 0 = false ∧
         clReg (getCl t cl.val) (0x1000 + n.val * 8) = clReg (getCl s cl.val) (0x1000 + n.val * 8) ∧ Dismissed s t o) ∧
     (Admits s fn (.cluster cl.val) (objCfgCheck s o v) pid → cfgMode (mwApply 7 cfg v) ≠ 0 → bit (mwApply 7 cfg v) 0 = true →
       ∃ t, exec (.hvCfgEnable fn o v) s = .next t ∧ clReg (getCl t cl.val) (0x1004 + n.val * 8) = setFld (setBit cfg 0 false) 13 6 0x06 ∧
         (bit cfg 0 = false → (getCl t cl.val).hive = (getCl s cl.val).hive ∧ t.cores = s.cores) ∧
         (bit cfg 0 = true → Dismissed s t o) ∧ (∀ d, d ≠ cl.val → getCl t d = getCl s d)) ∧
     (Admits s fn (.cluster cl.val) (fun p => objRefusal s p o) pid → (∀ q ∈ (getCl s cl.val).hive.arrived, q.obj ≠ o) →
       (∀ h, fn = .hcc h → tget s.hub.hccDirty h.val [] = []) →
       ∃ t, exec (.hvValn fn o v) s = .next t ∧ objVal t o = v ∧ (∀ x, x ≠ o → objVal t x = objVal s x) ∧ Released s t o v ∧
         (getCl t cl.val).hive.arrived = (getCl s cl.val).hive.arrived)) ∧
     (∀ code, fnLive s fn = true → fnHeld s fn = false → pmActive s = true → fnPid s fn = some pid → objRefusal s pid o = some code →
       ∃ t, exec (.hvValn fn o v) s = .next t ∧ (∀ x, objVal t x = objVal s x) ∧ (getCl t cl.val).hive = (getCl s cl.val).hive ∧
         fld (clReg (getCl t cl.val) 0x120) 15 0 = min 0xFFFF (fld (clReg (getCl s cl.val) 0x120) 15 0 + 1) ∧
         bit (clReg (getCl t cl.val) 0x120) 16 = true)) ∧
  (∀ (s : State) (fn : Fn) (l : LpIx) (n : Fin 64) (v : Word) (pid : Nat),
     let o : ObjRef := .port l n
     let off := 0x2004 + n.val * 0x10
     let cfg := lnkReg (getLnk s l.val) off
     let new := mwApply 7 cfg v
     let tgt := lnkReg (getLnk s l.val) (0x2008 + n.val * 0x10)
     let badMode := fld new 2 1 = 3 ∨ fld new 2 1 = 2 ∧ (128 ≤ fld tgt 7 0 ∨ 160 ≤ fld tgt 15 8)
     let untrained := fld new 2 1 ≠ 0 ∧ lnkTrained s l.val = false
     NoOwnSyncs s (.port l) fn → pid < 8 →
     (Admits s fn (.lp l.val) (objCfgCheck s o v) pid → bit cfg 0 = false → bit new 0 = true →
       (¬ badMode → ¬ untrained → locked s (.lp l.val) = true → ∃ t, exec (.hvCfgEnable fn o v) s = .next t ∧
         bit (lnkReg (getLnk t l.val) off) 0 = true ∧ fld (lnkReg (getLnk t l.val) off) 2 1 = fld new 2 1 ∧ fld (lnkReg (getLnk t l.val) off) 5 3 = pid ∧
         fld (lnkReg (getLnk t l.val) off) 13 6 = 0 ∧ objVal t o = 0 ∧ (∀ d, d ≠ l.val → getLnk t d = getLnk s d) ∧ t.cores = s.cores ∧ t.clusters = s.clusters) ∧
       (∀ c, (badMode ∧ c = 0x06 ∨ ¬ badMode ∧ untrained ∧ c = 0x08 ∨ ¬ badMode ∧ ¬ untrained ∧ locked s (.lp l.val) = false ∧ c = 0x10) →
         ∃ t, exec (.hvCfgEnable fn o v) s = .next t ∧ bit (lnkReg (getLnk t l.val) off) 0 = false ∧ fld (lnkReg (getLnk t l.val) off) 13 6 = c ∧
           objVal t o = objVal s o ∧ (getLnk t l.val).sync = (getLnk s l.val).sync ∧ (∀ d, d ≠ l.val → getLnk t d = getLnk s d) ∧ t.cores = s.cores)) ∧
     (Admits s fn (.lp l.val) (objCfgCheck s o v) pid → bit cfg 0 = true → bit new 0 = false →
       ∃ t, exec (.hvCfgDisable fn o v) s = .next t ∧ bit (lnkReg (getLnk t l.val) off) 0 = false ∧ objVal t o = objVal s o ∧ Dismissed s t o) ∧
     (Admits s fn (.lp l.val) (fun p => objRefusal s p o) pid → (∀ q ∈ (getLnk s l.val).sync.arrived, q.obj ≠ o) →
       (∀ h, fn = .hcc h → tget s.hub.hccDirty h.val [] = []) →
       (cfgMode cfg = 0 → ∃ t, exec (.hvValn fn o v) s = .next t ∧ objVal t o = v ∧ (∀ x, x ≠ o → objVal t x = objVal s x) ∧ Released s t o v ∧
         (getLnk t l.val).sync.arrived = (getLnk s l.val).sync.arrived) ∧
       (cfgMode cfg ≠ 0 → ∃ t, exec (.hvValn fn o v) s = .next t ∧ t.lnks = s.lnks ∧ t.cores = s.cores ∧ t.mesh = s.mesh)))

/-- R228, R229, R230, R241: the first packet that waits at a station. One for no step that the station takes, or for no record, or for a tile that was taken before, is
discarded, and logged at packet 0; one of a tile under assembly puts its rows in the tile's frame; one that starts a tile takes room in the buffer, or waits; with no block free every packet waits:
that those which would be discarded wait then too, and that a discarded tile is logged at packet 0 only, is the model's choice (log 26).

R231, R235, R239, R241, R244, R249: the tile of the open step that completed first. In a step that is lost it is only discarded; a print that holds its record counts; else the kernel runs on the
record's effective slot, the other slot is written, and last the pointer word, which names that slot with the step; a kernel that has not ended goes on with the next command; a trap of the kernel stops the
station. SPLIT state comes and goes by an entry of the station's ring, and the update waits for it. The model's choices: where a kernel that has not ended goes on (log 25), the places of
its tiles (log 24), the entry's place and form (log 116), what is seen of discarded tiles (log 26). -/
def Obligations.GradientsAndUpdates : Prop :=
  (∀ (s : State) (m : McIx) (g : GradPkt) (gs : List GradPkt), pmActive s = true →
     let k := getMc s m.val
     let drops := fun (code : Nat) => ∃ t, exec (.gradientPacket m) s = .next t ∧ (getMc t m.val).stn = { k.stn with arrived := gs } ∧
       t.mesh = s.mesh ∧ t.cores = s.cores ∧ (∀ d, d ≠ m.val → getMc t d = getMc s d) ∧
       (g.q ≠ 0 → (getMc t m.val).regs = k.regs ∧ t.parts = s.parts) ∧
       (g.q = 0 → bit (mcReg k 0x1058) 31 = false → fld (mcReg (getMc t m.val) 0x1058) 7 0 = code ∧ bit (mcReg (getMc t m.val) 0x1058) 31 = true) ∧
       (g.q = 0 → bit (mcReg k 0x1058) 31 = true → mcReg (getMc t m.val) 0x1060 = w32 (min 0xFFFFFFFF ((mcReg k 0x1060).toNat + 1))) ∧
       (g.q = 0 → code = 2 → (getPart t g.pid).step.forces = (getPart s g.pid).step.forces ++ [g.step]) ∧ (code ≠ 2 → t.parts = s.parts)
     let rows := fun (t : State) (t1 : GradTile) (got : Nat → Bool) (old : Mem) => t1 ∈ (getMc t m.val).stn.tiles ∧ t1.addr = g.addr ∧ t1.step = g.step ∧
       (∀ i, i < 8 → bit t1.got i = (decide (i = g.q) || got i)) ∧ (∀ i (h : i < g.bytes.length), mread t1.frame (256 * g.q + i) = g.bytes[i]) ∧
       (∀ a, a < 256 * g.q ∨ 256 * g.q + g.bytes.length ≤ a → mread t1.frame a = mread old a)
     k.stn.arrived = g :: gs → g.q < 8 →
     (512 ≤ stnBlocks k → exec (.gradientPacket m) s = .next (setMc s m.val (k.setReg 0x1064 (mcReg k 0x1064 + 1)))) ∧
     (stnBlocks k < 512 →
     (openFor k g.pid = none → drops 1) ∧
     (∀ o, openFor k g.pid = some o → g.step ≠ o → g.step ≠ o + 1 → drops 1) ∧
     (∀ o, openFor k g.pid = some o → (g.step = o ∨ g.step = o + 1) → recordOf k g.addr = none → drops 3) ∧
     (∀ o, openFor k g.pid = some o → (g.step = o ∨ g.step = o + 1) → recordOf k g.addr ≠ none →
       (∀ t0, k.stn.tiles.find? (tileWants g) = some t0 → ∃ t t1, exec (.gradientPacket m) s = .next t ∧ (getMc t m.val).stn.arrived = gs ∧
         rows t t1 (fun i => bit t0.got i) t0.frame ∧ (getMc t m.val).stn.tiles.length = k.stn.tiles.length ∧
         (∀ x ∈ k.stn.tiles.erase t0, x ∈ (getMc t m.val).stn.tiles) ∧ (getMc t m.val).regs = k.regs ∧ t.parts = s.parts) ∧
       (k.stn.tiles.find? (tileWants g) = none → ((∃ x ∈ k.stn.tiles, x.addr = g.addr ∧ x.step = g.step) ∨ (g.step, g.addr) ∈ k.stn.seen) → drops 2) ∧
       ((∀ x ∈ k.stn.tiles, ¬(x.addr = g.addr ∧ x.step = g.step)) → (g.step, g.addr) ∉ k.stn.seen → stnBlocks k + tileBlocks k g.addr ≤ 512 →
         ∃ t t1, exec (.gradientPacket m) s = .next t ∧ (getMc t m.val).stn.arrived = gs ∧ rows t t1 (fun _ => false) [] ∧
           (getMc t m.val).stn.tiles.length = k.stn.tiles.length + 1 ∧ (∀ x ∈ k.stn.tiles, x ∈ (getMc t m.val).stn.tiles) ∧
           (getMc t m.val).regs = k.regs ∧ t.parts = s.parts) ∧
       ((∀ x ∈ k.stn.tiles, ¬(x.addr = g.addr ∧ x.step = g.step)) → (g.step, g.addr) ∉ k.stn.seen → 512 < stnBlocks k + tileBlocks k g.addr →
         exec (.gradientPacket m) s = .next (setMc s m.val (k.setReg 0x1064 (mcReg k 0x1064 + 1))))))) ∧
  (∀ (s : State) (m : McIx) (o : BitVec 16) (tl : GradTile) (ecc : Ecc), pmActive s = true →
     let k := getMc s m.val
     let p := stnPid k
     let w : Who := { pid := p, cl := mcCluster m.val, stn := true }
     let full := k.stn.tiles.filter (fun t => t.got == 255#8 && t.step == o)
     let counted := fun (t : State) => (getMc t m.val).stn.tiles = k.stn.tiles.erase tl ∧ (getMc t m.val).stn.openStep = some o ∧
       fld (mcReg (getMc t m.val) 0x1050) 21 0 = (fld (mcReg k 0x1050) 21 0 + 1) % 2 ^ 22 ∧ (o, tl.addr) ∈ (getMc t m.val).stn.seen ∧ (getMc t m.val).stn.work = none
     let stalls := fun (off : Nat) => exec (.updateTile m ecc) s = .next (setMc s m.val (k.setReg off (mcReg k off + 1)))
     openFor k p = some o → stnTrapped k = false → full.head? = some tl →
     (stepLost (getPart s p) = true → ∃ t, exec (.updateTile m ecc) s = .next t ∧ counted t ∧
       (∀ c, (getMc t c).frames = (getMc s c).frames) ∧ t.cores = s.cores ∧ t.hub = s.hub) ∧
     (∀ r idx hd, stepLost (getPart s p) = false → recordOf k tl.addr = some (r, idx) → tierRead s w 2 tl.addr 8 = .ok hd →
       (k.stn.work = none → printHolds s p m.val r idx tl.addr = true → stalls 0x106C) ∧
       (∀ z, k.stn.work = some z → z.phase = .fetch → splitIdle s m.val = false → stalls 0x1068) ∧
       (∀ z ws, k.stn.work = some z → z.phase = .store ws → splitIdle s m.val = false → stalls 0x1068) ∧
       (∀ z ws, k.stn.work = some z → z.phase = .store ws → splitIdle s m.val = true → ∃ t, exec (.updateTile m ecc) s = .next t ∧ counted t ∧ t.cores = s.cores) ∧
       (∀ cache, let l := effectiveSlot ((BitVec.ofNat 64 (leNat hd)).setWidth 32) (updLast s m.val p)
         let cl := mcCluster m.val
         let src := tilesDesc 3 (stateAt k r idx tl.addr l 0).2 (1 + regM k r)
         k.stn.work = none → printHolds s p m.val r idx tl.addr = false → regSplit k r = true → splitIdle s m.val = true → ecc = .clean →
         tierRead s w 2 (tl.addr + 0x800 + 0x800 * l) 0x800 = .ok cache →
         ∃ t, exec (.updateTile m ecc) s = .next t ∧ (getMc t m.val).stn.work = some { addr := tl.addr, phase := .fetch } ∧ (getMc t m.val).stn.tiles = k.stn.tiles ∧
           mreads (getCl t cl).staging (splitRing + 192 * ringTail (getCl s cl) 3 + 64) 64 = leBytes 64 src.toNat ∧
           clReg (getCl t cl) 0x1858 = w32 ((ringTail (getCl s cl) 3 + 1) % 2) ∧ t.cores = s.cores ∧ t.parts = s.parts)) ∧
     (∀ r idx hd cache live e, stepLost (getPart s p) = false → k.stn.work = none → printHolds s p m.val r idx tl.addr = false → ecc = .clean →
       recordOf k tl.addr = some (r, idx) → regSplit k r = false → tierRead s w 2 tl.addr 8 = .ok hd → pageOf s p 2 tl.addr = some e →
       let l := effectiveSlot ((BitVec.ofNat 64 (leNat hd)).setWidth 32) (updLast s m.val p)
       let rows := fld (BitVec.ofNat 64 (leNat hd)) 36 32 + 1
       let cols := fld (BitVec.ofNat 64 (leNat hd)) 41 37 + 1
       tierRead s w 2 (tl.addr + 0x800 + 0x800 * l) 0x800 = .ok cache → readState s w k r idx tl.addr l (List.range (1 + regM k r)) = .ok live →
       let ends := kernelGo p (kernelWords k) kernelBound { State.reset with free := s.free + 1, cores := [(0, kernelCore
         { m := regM k r, g := (unscale k.stn.lse tl.frame).1, live := live, cache := cache, hp := k.stn.hp,
           seed := (takeFree 80 s).1.extractLsb' 0 64, tag := (takeFree 80 s).1.extractLsb' 64 16 })] }
       (∀ scratch, ends.1 = .done scratch → ∃ t, exec (.updateTile m ecc) s = .next t ∧ counted t ∧
         mreads (frameMem (getMc t (ptPkg e)) (ptFrame e)) (tl.addr % 2 ^ 21) 4 = leBytes 4 (l + 2 + o.toNat * 2 ^ 16) ∧
         (regM k r ≤ 2 → s.hub.hccDirty = [] → ∀ c f x,
           (∀ z ∈ (tl.addr, leBytes 4 0) :: shadowCache tl.addr (1 - l) rows cols scratch ::
               (shadowVals k r rows cols scratch).map (fun v => ((stateAt k r idx tl.addr (1 - l) v.1).2, v.2)),
             ¬(c = ptPkg e ∧ f = ptFrame e ∧ z.1 % 2 ^ 21 ≤ x ∧ x < z.1 % 2 ^ 21 + z.2.length)) →
           mread (frameMem (getMc t c) f) x = mread (frameMem (getMc s c) f) x) ∧ t.cores = s.cores) ∧
       (ends.1 = .running → ∃ t, exec (.updateTile m ecc) s = .next t ∧
         (getMc t m.val).stn.work = some { addr := tl.addr, phase := .kernel l (getCore ends.2 0) } ∧ (getMc t m.val).stn.tiles = k.stn.tiles ∧
         (∀ c, (getMc t c).frames = (getMc s c).frames) ∧ t.cores = s.cores) ∧
       (∀ cause, ends.1 = .trap cause → ∃ t, exec (.updateTile m ecc) s = .next t ∧ bit (mcReg (getMc t m.val) 0x1004) 1 = true ∧
         bit (partReg (getPart t p) 0x40) 6 = true ∧ (getMc t m.val).stn.tiles = k.stn.tiles ∧ (∀ c, (getMc t c).frames = (getMc s c).frames) ∧
         (bit (mcReg k 0x1058) 31 = false → fld (mcReg (getMc t m.val) 0x1058) 7 0 = 5 ∧ fld (mcReg (getMc t m.val) 0x1058) 15 8 = cause % 256))))

/-- R230, R237, R238, R239: the messages of a step. A completion message is counted, and after the sixteenth the wait begins; a forcing message counts for the open step or is kept
for the next; the outcome is sampled, written to PART_STEP_LAST and sent, and the next step opens; a controller applies it; the last acknowledgement sets DECIDED.

R240, R242, R363, R366: OPEN opens the step that PART_STEP names, at every station of the partition, with what is latched then; while a step is open or a loss stands it is
refused. ABORT decides the open step as a forced SKIP and closes it everywhere. PART_LSCALE takes an exponent from -15 to 30. -/
def Obligations.TrainingSteps : Prop :=
  (∀ (s : State) (p : PartIx) (m : McIx),
     let q := getPart s p.val
     let st := partReg q 0x114
     let same := fun (t : State) => { t with parts := [] } = { s with parts := [] } ∧ ∀ d, d ≠ p.val → getPart t d = getPart s d
     (bit q.step.compMsgs m.val = true → ∃ t, exec (.completionMessage p m) s = .next t ∧ same t ∧
       (∀ i, i < 16 → bit (getPart t p.val).step.comp i = (decide (i = m.val) || bit q.step.comp i)) ∧
       (∀ i, i < 16 → bit (getPart t p.val).step.compMsgs i = (decide (i ≠ m.val) && bit q.step.compMsgs i)) ∧
       (bit (partReg (getPart t p.val) 0x114) 20 = true ↔ (bit st 20 = true ∨ (getPart t p.val).step.comp = 0xFFFF#16))) ∧
     (∀ n ns, q.step.forces = n :: ns → ∃ t, exec (.forcingMessage p) s = .next t ∧ same t ∧ (getPart t p.val).regs = q.regs ∧
       (getPart t p.val).step = { q.step with forces := ns, forced := q.step.forced || (bit st 16 && decide (n = st.setWidth 16)),
                                               forcedNext := q.step.forcedNext || (bit st 16 && decide (n = st.setWidth 16 + 1)) }) ∧
     (bit st 16 = true → q.step.comp = 0xFFFF#16 → q.step.decision = none → ∃ t, exec (.outcomeSample p) s = .next t ∧
       (let skip := bit st 19 || (bit st 17 && !(bit (partReg q 0x110) 2)) || q.step.forced
        let o : BitVec 16 := st.setWidth 16
        let u := getPart t p.val
        fld (partReg u 0x118) 15 0 = o.toNat ∧ fld (partReg u 0x118) 17 16 = (if skip then 2 else 1) ∧ bit (partReg u 0x118) 18 = q.step.forced ∧
        bit (partReg u 0x118) 19 = false ∧ fld (partReg u 0x114) 15 0 = (o.toNat + 1) % 65536 ∧ bit (partReg u 0x114) 16 = true ∧
        bit (partReg u 0x114) 17 = bit st 18 ∧ bit (partReg u 0x114) 18 = false ∧ bit (partReg u 0x114) 19 = false ∧
        u.step.decision = some (o, !skip) ∧ u.step.due = 0xFFFF#16 ∧ u.step.comp = 0 ∧ u.step.forced = q.step.forcedNext ∧ u.step.forcedNext = false ∧
        u.step.lse = (partReg q 0x10C).setWidth 8 ∧ u.step.hp = (List.range 8).map (fun i => partReg q (0x120 + 4 * i)))) ∧
     (∀ o commit, pmActive s = true → bit q.step.due m.val = true → q.step.decision = some (o, commit) → ∃ t, exec (.decision p m) s = .next t ∧
       (∀ i, i < 16 → bit (getPart t p.val).step.due i = (decide (i ≠ m.val) && bit q.step.due i)) ∧
       (∀ i, i < 16 → bit (getPart t p.val).step.ackMsgs i = (decide (i = m.val) || bit q.step.ackMsgs i)) ∧
       mcReg (getMc t m.val) (0x1080 + 4 * p.val) = (if commit then w32 (o.toNat + 2 ^ 16) else mcReg (getMc s m.val) (0x1080 + 4 * p.val)) ∧
       (q.step.closing = false → stnOn (getMc s m.val) = true → stnPid (getMc s m.val) = p.val → (getMc t m.val).stn.openStep = some (o + 1) ∧
         mcReg (getMc t m.val) 0x1050 = 0 ∧ (getMc t m.val).stn.hp = q.step.hp ∧ (getMc t m.val).stn.lse = q.step.lse) ∧
       (∀ d, d ≠ m.val → getMc t d = getMc s d)) ∧
     (bit q.step.ackMsgs m.val = true → ∃ t, exec (.acknowledgement p m) s = .next t ∧
       ((∀ i, i < 16 → (i = m.val ∨ bit q.step.acked i = true)) → bit (partReg (getPart t p.val) 0x118) 19 = true ∧ (getPart t p.val).step.decision = none ∧
         bit (partReg (getPart t p.val) 0x40) 7 = true) ∧
       (¬ (∀ i, i < 16 → (i = m.val ∨ bit q.step.acked i = true)) → same t ∧ (getPart t p.val).regs = q.regs ∧
         ∀ i, i < 16 → bit (getPart t p.val).step.acked i = (decide (i = m.val) || bit q.step.acked i)))) ∧
  (∀ (s : State) (fn : Fn) (p : PartIx) (v : Word) (pid : Nat),
     let q := getPart s p.val
     let st := partReg q 0x114
     let new := mwApply 7 (partReg q 0x110) v
     PartAdmits s fn p pid →
     (bit new 0 = true → bit new 1 = false → (bit st 16 = true ∨ bit (partReg q 0x1A0) 0 = true) → ∃ t, exec (.partStepCtlOpen fn p v) s = .next t ∧
       fld (partReg (getPart t p.val) 0x114) 31 24 = 0x0D ∧ fld (partReg (getPart t p.val) 0x114) 23 0 = fld st 23 0 ∧ PartRegs s t p.val [0x110, 0x114]) ∧
     (bit new 0 = true → bit new 1 = false → bit st 16 = false → bit (partReg q 0x1A0) 0 = false → ∃ t, exec (.partStepCtlOpen fn p v) s = .next t ∧
       (let u := getPart t p.val
        fld (partReg u 0x114) 15 0 = fld (partReg q 0x108) 15 0 ∧ bit (partReg u 0x114) 16 = true ∧ fld (partReg u 0x114) 19 17 = 0 ∧
        u.step.lse = (partReg q 0x10C).setWidth 8 ∧ u.step.hp = (List.range 8).map (fun i => partReg q (0x120 + 4 * i)) ∧
        u.step.prog = progDigest s p.val ∧ u.step.topo = topoDigest s p.val ∧
        (∀ m, m < 16 → stnOn (getMc s m) = true → stnPid (getMc s m) = p.val → (getMc t m).stn.openStep = some ((partReg q 0x108).setWidth 16) ∧
          (getMc t m).stn.hp = u.step.hp ∧ (getMc t m).stn.lse = u.step.lse ∧ mcReg (getMc t m) 0x1050 = 0) ∧ t.cores = s.cores)) ∧
     (bit new 1 = true → bit new 0 = false → bit st 16 = true → ∃ t, exec (.partStepCtlAbort fn p v) s = .next t ∧
       (let u := getPart t p.val
        fld (partReg u 0x118) 15 0 = fld st 15 0 ∧ fld (partReg u 0x118) 17 16 = 2 ∧ bit (partReg u 0x118) 18 = true ∧
        fld (partReg u 0x114) 19 16 = 0 ∧ u.step.decision = some (st.setWidth 16, false) ∧
        (∀ m, m < 16 → stnOn (getMc s m) = true → stnPid (getMc s m) = p.val → (getMc t m).stn.openStep = none ∧ (getMc t m).stn.tiles = []) ∧ t.cores = s.cores)) ∧
     (bit new 1 = true → bit new 0 = false → bit st 16 = false → ∃ t, exec (.partStepCtlAbort fn p v) s = .next t ∧ PartRegs s t p.val [0x110]) ∧
     (∃ t, exec (.partLscale fn p v) s = .next t ∧
       (let e := (v.setWidth 8).toInt
        (-15 ≤ e ∧ e ≤ 30 → partReg (getPart t p.val) 0x10C = v &&& 0xFF#32 ∧ PartRegs s t p.val [0x10C]) ∧
        (¬(-15 ≤ e ∧ e ≤ 30) → fld (partReg (getPart t p.val) 0x114) 31 24 = 0x06 ∧ PartRegs s t p.val [0x114]))))

/-- R251, R252, R241, R326: an update station is enabled for its writer if no check stands against it, with an empty buffer and no open step; cleared, it stops. A commit record is
written only while no station is enabled for its partition. A station with a SPLIT region takes ring channel 3 of its cluster; where its ring stands is the model's choice (R244; log 116), and so is
that 0x10 (R382) comes before the reasons of R252 (log 129), and what a disable empties and keeps (log 27). -/
def Obligations.UpdateStations : Prop :=
  ∀ (s : State) (fn : Fn) (m : McIx) (p : PartIx) (v : Word) (pid : Nat),
    let k := getMc s m.val
    let new := mwApply 0xFF (mcReg k 0x1000) v
    let c := updCheck s m.val pid (k.setReg 0x1000 new)
    let splits := fun (x : Word) => (List.range 4).any (fun r => bit x (4 + r) && regSplit k r)
    let ctl := Admits s fn (.mc m.val) (updRefusal s m.val (mwStaysOn (mcReg k 0x1000) v)) pid ∧ ¬(pid = 0xF ∧ (stationOwner s m.val).any (fun o => partState s o == SEALED) = true)
    (ctl → bit (mcReg k 0x1000) 0 = false → bit new 0 = true → pid < 8 →
      (locked s (.mc m.val) = false → c = 0x10) ∧
      (locked s (.mc m.val) = true → bit (partReg (getPart s pid) 0x114) 16 = true → c = 0x0D) ∧
      (locked s (.mc m.val) = true → bit (partReg (getPart s pid) 0x114) 16 = false → stationOwner s m.val ≠ some pid → c = 0x0E) ∧
      ∃ t, exec (.updCtlEnable fn m v) s = .next t ∧ (∀ d, d ≠ m.val → getMc t d = getMc s d) ∧ { noDd t with mcs := [], clusters := [] } = { noDd s with mcs := [], clusters := [] } ∧
        ((c ≠ 0 ∨ splits new = false) → t.clusters = s.clusters) ∧ (∀ d, d ≠ mcCluster m.val → getCl t d = getCl s d) ∧
        (c = 0 → splits new = true → let h := getCl t (mcCluster m.val)
          ringOn h 3 = true ∧ ringPid h 3 = pid ∧ ringSpan h 3 = (splitRing, 384) ∧ ringHead h 3 = 0 ∧ ringTail h 3 = 0 ∧ h.staging = (getCl s (mcCluster m.val)).staging) ∧
        (c = 0 → bit (mcReg (getMc t m.val) 0x1000) 0 = true ∧ bit (mcReg (getMc t m.val) 0x1004) 0 = true ∧ stnPid (getMc t m.val) = pid ∧
          stnTrapped (getMc t m.val) = false ∧ mcReg (getMc t m.val) 0x1050 = 0 ∧ (getMc t m.val).stn = { Station.reset with arrived := k.stn.arrived }) ∧
        (c ≠ 0 → bit (mcReg (getMc t m.val) 0x1000) 0 = false ∧ fld (mcReg (getMc t m.val) 0x1004) 15 8 = c % 256 ∧
          fld (mcReg (getMc t m.val) 0x1004) 7 0 = fld (mcReg k 0x1004) 7 0 ∧ (getMc t m.val).stn = k.stn)) ∧
    (ctl → bit (mcReg k 0x1000) 0 = true → bit new 0 = false → ∃ t, exec (.updCtlDisable fn m v) s = .next t ∧
      fld (mcReg (getMc t m.val) 0x1004) 1 0 = 0 ∧ bit (mcReg (getMc t m.val) 0x1000) 0 = false ∧
      (getMc t m.val).stn = { Station.reset with arrived := k.stn.arrived } ∧ (getMc t m.val).frames = k.frames ∧
      (∀ d, d ≠ m.val → getMc t d = getMc s d) ∧ { noDd t with mcs := [], clusters := [] } = { noDd s with mcs := [], clusters := [] } ∧
      (splits (mcReg k 0x1000) = false → t.clusters = s.clusters) ∧ (∀ d, d ≠ mcCluster m.val → getCl t d = getCl s d)) ∧
    (Admits s fn (.mc m.val) (fun x => ownCheck s x p.val true false) pid → ¬(pid = 0xF ∧ partState s p.val = SEALED) →
      let on := ∃ n, n < 16 ∧ stnOn (getMc s n) = true ∧ stnPid (getMc s n) = p.val
      ∃ t, exec (.updLastp fn m p v) s = .next t ∧ McRegs s t m.val [0x1080 + 4 * p.val] ∧
        (on → mcReg (getMc t m.val) (0x1080 + 4 * p.val) = mcReg k (0x1080 + 4 * p.val)) ∧
        (¬ on → mcReg (getMc t m.val) (0x1080 + 4 * p.val) = v &&& 0x3FFFF#32))

/-- R247, R248, R249, R250, R306, R349, R279: a print is armed if no check stands against it, else its reason is recorded. A print that runs copies its manifest, then its records one by one, to the link port in flits of
240 bytes once those before them have left it, or to the host, after what it needs of the host has been read; then a print to the host posts a completion record for each region while the ring has room; it ends with ENABLE 0, DONE 1, the print interrupt.
Securing arms its first print at once; a print of its own that it meets stays its own. That what cannot be read or written now is waited for
(log 33), and that the copy is made a record at a time (log 117), is the model's choice.

R346, R348, R350, R351, R366: step records and the proof start if no check stands against them. The proof writes its table and that table's digest; compared with a reference, it counts
the entries that differ and names the first. The state of SPLIT records is read from the host first. When the digests are read is the model's choice (log 28). -/
def Obligations.PrintsAndRecords : Prop :=
  (∀ (s : State) (fn : Fn) (p : PartIx) (v : Word) (pid : Nat) (ecc : Ecc),
     let q := getPart s p.val
     let st := partReg q 0x184
     let new := mwApply 0x3F (partReg q 0x180) v
     let c := printCheck s p.val new
     let peer := bit (partReg q 0x180) 1
     let l := fld (partReg q 0x180) 5 2
     let ended := fun (t : State) => bit (partReg (getPart t p.val) 0x184) 17 = false ∧ bit (partReg (getPart t p.val) 0x184) 18 = true ∧ bit (partReg (getPart t p.val) 0x40) 8 = true ∧
       (getPart t p.val).step.print = none ∧ (bit (partReg q 0x1E0) 0 = false → bit (partReg (getPart t p.val) 0x180) 0 = false) ∧ t.cores = s.cores ∧ t.mcs = s.mcs ∧ t.lnks = s.lnks
     (PartAdmits s fn p pid → bit (partReg q 0x180) 0 = false → bit new 0 = true →
       ((bit st 16 = true ∨ bit st 17 = true) → bit new 1 = true → lnkTrained s (fld new 5 2) = true → c = 0x0D) ∧
       (bit new 1 = true → lnkTrained s (fld new 5 2) = false → c = 0x08) ∧
       ∃ t, exec (.partPrintCtlEnable fn p v) s = .next t ∧ PartRegs s t p.val [0x180, 0x184, 0x90] ∧
         fld (partReg (getPart t p.val) 0x184) 31 24 = c % 256 ∧ bit (partReg (getPart t p.val) 0x180) 0 = decide (c = 0) ∧
         (c = 0 → bit (partReg (getPart t p.val) 0x184) 16 = true) ∧ (c ≠ 0 → bit (partReg (getPart t p.val) 0x184) 16 = bit st 16) ∧
         (c = 0 → bit new 1 = false → hwrOwner (getPart t p.val) = 1) ∧ (c ≠ 0 → c ≠ 3 → partReg (getPart t p.val) 0x90 = partReg q 0x90) ∧
         (c = 3 → fld (partReg (getPart t p.val) 0x90) 31 24 = 3 ∧ fld (partReg (getPart t p.val) 0x90) 23 0 = fld (partReg q 0x90) 23 0)) ∧
     (∀ r, q.step.print = some r →
       (∀ b r2 src, ((r.head = some b ∧ r2 = { r with head := none } ∧ src = []) ∨
           (∃ m g i xs, r.head = none ∧ r.todo = (m, g, i) :: xs ∧ wholeRecord s p.val (getMc s m) g i = .ok b ∧ r2 = { r with todo := xs } ∧
             src = recordHost (getMc s m) g i ∧ ecc = .clean)) →
         let asks := hostPieces s p.val src ++ runPieces s p.val (sectorRuns (printParts s p.val r b))
         let came := tfind q.reads 0 = some [] ∨ (tfind q.reads 0 = none ∧ asks = [])
         let waits := (peer = true ∧ printQueued (getLnk s l) = true) ∨ (peer = false ∧ hostOpen s p.val = false)
         let fits := peer = false → writeFail s { pid := p.val, cl := 0, stn := false } 3 [(fld (partReg q 0x188) 19 0 * 2 ^ 21 + r.pos, b)] = none
         (waits → exec (.printDone p ecc) s = .next s) ∧
         (¬ waits → fits → (∃ x xs, tfind q.reads 0 = some (x :: xs)) → exec (.printDone p ecc) s = .next s) ∧
         (¬ waits → fits → tfind q.reads 0 = none → asks ≠ [] → ∃ t, exec (.printDone p ecc) s = .next t ∧ (getPart t p.val).step = q.step ∧
           t.hub.reqs.length = s.hub.reqs.length + asks.length ∧ (∃ x xs, tfind (getPart t p.val).reads 0 = some (x :: xs)) ∧ t.lnks = s.lnks ∧ t.mcs = s.mcs) ∧
         (¬ waits → came → peer = true → let n := (r.rest ++ b).length / 240
           ∃ t, exec (.printDone p ecc) s = .next t ∧ (getLnk t l).txq = (getLnk s l).txq ++ printItems r.flits (pieces 240 n (r.rest ++ b)) ∧
             (getPart t p.val).step.print = some { r2 with rest := (r.rest ++ b).drop (240 * n), flits := r.flits + n } ∧ (getPart t p.val).regs = q.regs ∧
             (∀ d, d ≠ l → getLnk t d = getLnk s d) ∧ t.cores = s.cores ∧ t.mcs = s.mcs) ∧
         (¬ waits → fits → came → peer = false →
           ∃ t, exec (.printDone p ecc) s = .next t ∧ (getPart t p.val).step.print = some { r2 with pos := r.pos + b.length } ∧ (getPart t p.val).regs = q.regs ∧
             t.cores = s.cores ∧ t.mcs = s.mcs ∧ t.lnks = s.lnks)) ∧
       (r.head = none → r.todo = [] → peer = true → printQueued (getLnk s l) = true → exec (.printDone p ecc) s = .next s) ∧
       (r.head = none → r.todo = [] → peer = true → printQueued (getLnk s l) = false → r.rest = [] → ∃ t, exec (.printDone p ecc) s = .next t ∧ ended t) ∧
       (r.head = none → r.todo = [] → peer = false → (r.regions = [] ∨ hwrOn q = false) → ∃ t, exec (.printDone p ecc) s = .next t ∧ ended t) ∧
       (∀ x xs, r.head = none → r.todo = [] → peer = false → r.regions = x :: xs → hwrOn q = true →
         (hwrRoom q = 0 → exec (.printDone p ecc) s = .next s) ∧
         (hwrRoom q ≠ 0 → ∃ t, exec (.printDone p ecc) s = .next t ∧ (getPart t p.val).step.print = some { r with regions := xs } ∧ (getPart t p.val).hwrSeq = q.hwrSeq + 1 ∧
           hwrTail (getPart t p.val) = (hwrTail q + 1) % 2 ^ hwrLog q ∧ t.cores = s.cores ∧ t.mcs = s.mcs ∧ t.lnks = s.lnks))) ∧
     (PartAdmits s fn p pid → bit (partReg q 0x1E0) 0 = false → bit (mwApply 1 (partReg q 0x1E0) v) 0 = true →
       ∃ t, exec (.partSecureCtlEnable fn p v) s = .next t ∧ PartRegs s { t with parts := tset t.parts p.val { getPart t p.val with step := q.step } } p.val [0x180, 0x184, 0x90, 0x1E0, 0x1E8] ∧
         bit (partReg (getPart t p.val) 0x1E0) 0 = true ∧
         (let c := printCheck s p.val (partReg q 0x180)
          (c = 0 → (getPart t p.val).step.secPrint = true ∧ bit (partReg (getPart t p.val) 0x184) 16 = true) ∧
          (c ≠ 0 → (getPart t p.val).step.secPrint = q.step.secPrint ∧ partReg (getPart t p.val) 0x180 = partReg q 0x180 ∧
            fld (partReg (getPart t p.val) 0x1E8) 31 16 = (fld (partReg q 0x1E8) 31 16 + 1) % 65536)))) ∧
  (∀ (s : State) (fn : Fn) (p : PartIx) (v : Word) (pid : Nat) (ecc : Ecc),
     let q := getPart s p.val
     let newR := mwApply 0x7F (partReg q 0x1C0) v
     let cR := srecCheck s p.val (q.setReg 0x1C0 newR)
     let newP := mwApply 3 (partReg q 0x200) v
     let cP := proofCheck s p.val (bit newP 1)
     (PartAdmits s fn p pid → bit (partReg q 0x1C0) 0 = false → bit newR 0 = true →
       (bit (partReg q 0x114) 16 = true → cR = 0x0D) ∧
       (bit (partReg q 0x114) 16 = false → (fld newR 6 2 < 8 ∨ 20 < fld newR 6 2) → cR = 0x06) ∧
       ∃ t, exec (.partSrecCtlEnable fn p v) s = .next t ∧ { t with parts := [] } = { s with parts := [] } ∧ (∀ d, d ≠ p.val → getPart t d = getPart s d) ∧
         bit (partReg (getPart t p.val) 0x1C0) 0 = decide (cR = 0) ∧
         (cR = 0 → partReg (getPart t p.val) 0x1CC = 0 ∧ (getPart t p.val).step.seq = 0) ∧
         (cR ≠ 0 → fld (partReg (getPart t p.val) 0x1CC) 31 24 = cR % 256 ∧ (getPart t p.val).step = q.step)) ∧
     (PartAdmits s fn p pid → bit newP 0 = true → ∃ t, exec (.partProofCtlStart fn p v) s = .next t ∧ PartRegs s t p.val [0x200, 0x20C] ∧
       bit (partReg (getPart t p.val) 0x200) 0 = false ∧
       (cP = 0 → bit (partReg (getPart t p.val) 0x20C) 0 = true ∧ fld (partReg (getPart t p.val) 0x20C) 31 24 = 0) ∧
       (cP ≠ 0 → fld (partReg (getPart t p.val) 0x20C) 31 24 = cP % 256 ∧ bit (partReg (getPart t p.val) 0x20C) 0 = bit (partReg q 0x20C) 0) ∧
       (bit (partReg q 0x20C) 0 = true → validRun s p.val 2 (fld (partReg q 0x204) 17 0) (proofPages (allRecords s p.val).length) = true →
         bit newP 1 = false → cP = 0x0D)) ∧
     (∀ recs rf, let ids := allRecords s p.val
       let w : Who := { pid := p.val, cl := 0, stn := true }
       let cmp := bit (partReg q 0x200) 1
       let tb := proofTable s p.val ids recs
       let ws := [(fld (partReg q 0x204) 17 0 * 2 ^ 21, tb)]
       bit (partReg q 0x20C) 0 = true → wholeRecords s p.val ids = .ok recs → (cmp = true → tierRead s w 2 (fld (partReg q 0x208) 17 0 * 2 ^ 21) (64 + 16 * ids.length) = .ok rf) →
       writeFail s w 2 ws = none →
       let asks := hostPieces s p.val (ids.flatMap (fun x => recordHost (getMc s x.1) x.2.1 x.2.2))
       ((∃ x xs, tfind q.reads 1 = some (x :: xs)) → exec (.proofDone p ecc) s = .next s) ∧
       (tfind q.reads 1 = none → asks ≠ [] → ∃ t, exec (.proofDone p ecc) s = .next t ∧ (getPart t p.val).regs = q.regs ∧
         t.hub.reqs.length = s.hub.reqs.length + asks.length ∧ t.mcs = s.mcs) ∧
       (ecc = .clean → (tfind q.reads 1 = some [] ∨ (tfind q.reads 1 = none ∧ asks = [])) →
       let miss := proofMisses ids.length tb rf
       ∃ t, exec (.proofDone p ecc) s = .next t ∧ bit (partReg (getPart t p.val) 0x20C) 0 = false ∧ bit (partReg (getPart t p.val) 0x20C) 1 = true ∧
         (bit (partReg (getPart t p.val) 0x20C) 2 = true ↔ cmp = true ∧ miss = [] ∧ tb.take 64 = rf.take 64) ∧
         (cmp = true → partReg (getPart t p.val) 0x210 = w32 miss.length ∧ partReg (getPart t p.val) 0x214 = w32 (miss.headD 0)) ∧
         (cmp = false → partReg (getPart t p.val) 0x210 = 0 ∧ partReg (getPart t p.val) 0x214 = 0) ∧
         (partReg (getPart t p.val) 0x218).toNat + (partReg (getPart t p.val) 0x21C).toNat * 2 ^ 32 = crc64 tb % 2 ^ 64 ∧
         t.cores = s.cores ∧ t.clusters = (tierPut s w 2 ws).clusters ∧ t.mcs = (tierPut s w 2 ws).mcs)))

/-- R139, R140, R142, R194, R227, R326, R360: a packet arrives, the first of those between its two places. A write or read of a register takes effect at its location, or is refused, counted and
answered with the refusal; the operator's writes to a sealed partition's core are dropped and counted; an answer goes to its port; the bursts of a page read are corrected and counted, or poison their units; once the
headers of containers have come their payloads are read; link payload at a port goes out. No packet passes a stopped island. The flits are counted at the die-to-die interfaces of the path: what a packet counts as (log 113), that a write to a
read-only location is refused (log 60) and which unit an error poisons (log 97) are the model's choices. -/
def Obligations.MeshPackets : Prop :=
  ∀ (s : State) (n : Nat) (ecc : Ecc) (q0 q : Packet), s.mesh[n]? = some q0 → s.mesh.find? (fun x => x.src == q0.src && x.dst == q0.dst) = some q →
    let run := exec (.meshPacketDelivery n ecc) s
    let back := fun (b : Body) => ({ pid := q.pid, src := q.dst, dst := q.src, tid := q.tid, body := b } : Packet)
    ((stopped s q.src = true ∨ stopped s q.dst = true) → run = .next s) ∧
    (∀ t cl m l d i, run = .next t → stopped s q.src = false → stopped s q.dst = false → (q.body = .ack ∨ (∃ v, q.body = .data v) ∨ ∃ r, q.body = .sync r) → d < 4 → i < 3 →
      (q.src = .cluster cl → q.dst = .mc m → cl / 40 = mcCluster m / 40 → hubReg t.hub (ddOff d i) = hubReg s.hub (ddOff d i)) ∧
      (q.src = .lp l → q.dst = .hub m → i = 0 → lpCluster l / 40 = d → hubReg t.hub (ddOff d 0) = hubReg s.hub (ddOff d 0) + w32 q.flits) ∧
      (q.src = .hub m → q.dst = .lp l → i = 0 → lpCluster l / 40 = d → hubReg t.hub (ddOff d 0 + 4) = hubReg s.hub (ddOff d 0 + 4) + w32 q.flits)) ∧
    (stopped s q.src = false → stopped s q.dst = false →
      (∀ a v p, q.body = .regWrite a v → sealedOwner s (flightFn s q.tid) (indLoc a) = some p → locRefusal s (fld a 31 24) q.pid none (indLoc a) = none → ∃ t, run = .next t ∧
        t.mesh = s.mesh.erase q ++ [back .ack] ∧ t.cores = s.cores ∧ t.clusters = s.clusters ∧ (partReg (getPart t p) 0x28).toNat = min 0xFFFFFFFF ((partReg (getPart s p) 0x28).toNat + 1)) ∧
      (∀ a v c, q.body = .regWrite a v → sealedOwner s (flightFn s q.tid) (indLoc a) = none → locRefusal s (fld a 31 24) q.pid (some v) (indLoc a) = some c → ∃ t, run = .next t ∧
        t.mesh = s.mesh.erase q ++ [back (.refusal c)] ∧ t.cores = s.cores ∧
        (let sealed := fun (p : Nat) => ∃ off, indLoc a = .cl off ∧ flightFn s q.tid = .pf ∧ entryOwner (getCl s (fld a 31 24)) off = some p ∧ partState s p = SEALED
         ((∀ p, ¬ sealed p) → t.parts = s.parts) ∧
         (∀ p, sealed p → (partReg (getPart t p) 0x28).toNat = min 0xFFFFFFFF ((partReg (getPart s p) 0x28).toNat + 1))) ∧
        (∀ cl, q.dst = .cluster cl → fld (clReg (getCl t cl) 0x120) 15 0 = min 0xFFFF (fld (clReg (getCl s cl) 0x120) 15 0 + 1))) ∧
      (∀ a v, q.body = .regWrite a v → locRefusal s (fld a 31 24) q.pid (some v) (indLoc a) = none → ∃ t, run = .next t ∧
        (∃ ms, t.mesh = ms ++ [back .ack] ∧ ((∀ off, indLoc a ≠ .cl off) → ms = s.mesh.erase q)) ∧
        (∀ c x, indLoc a = .sram c x → (flightFn s q.tid ≠ .pf ∨ ∀ p, coreOwner s c = some p → partState s p ≠ SEALED) →
          (∀ i, i < 4 → (mread (getCore t c).sram (x + i)).toNat = v.toNat / 256 ^ i % 256) ∧
          (∀ b, b < x ∨ x + 4 ≤ b → mread (getCore t c).sram b = mread (getCore s c).sram b) ∧ (∀ d, d ≠ c → getCore t d = getCore s d))) ∧
      (∀ a c, q.body = .regRead a → locRefusal s (fld a 31 24) q.pid none (indLoc a) = some c → ∃ t, run = .next t ∧
        t.mesh = s.mesh.erase q ++ [back (.refusal c)] ∧ t.cores = s.cores ∧ t.parts = s.parts) ∧
      (∀ a, q.body = .regRead a → locRefusal s (fld a 31 24) q.pid none (indLoc a) = none → sealedAt s (flightFn s q.tid) (indLoc a) = none → ∃ t ms, run = .next t ∧
        ((∀ off, indLoc a ≠ .cl off) → ms = s.mesh.erase q) ∧
        t.mesh = ms ++ [back (.data (locRead (valsFirst s (flightFn s q.tid) (fld a 31 24) (indLoc a)) (fld a 31 24) (indLoc a)).1)]) ∧
      (∀ f, q.body = .ack → (indState s (tidPort q.tid)).flight = some f → ∃ t, run = .next t ∧ t.mesh = s.mesh.erase q ∧
        (indState t (tidPort q.tid)).flight = some { f with ans := some (.val 0) }) ∧
      (∀ v f, q.body = .data v → (indState s (tidPort q.tid)).flight = some f → ∃ t, run = .next t ∧ t.mesh = s.mesh.erase q ∧
        (indState t (tidPort q.tid)).flight = some { f with ans := some (.val v) }) ∧
      (∀ c f, q.body = .refusal c → (indState s (tidPort q.tid)).flight = some f → ∃ t, run = .next t ∧ t.mesh = s.mesh.erase q ∧
        (indState t (tidPort q.tid)).flight = some { f with ans := some (.refused c) }) ∧
      (∀ r, q.body = .sync r → ∃ t, run = .next t ∧ t.mesh = s.mesh.erase q ∧ unitSync t (objUnit r.obj) =
        { unitSync s (objUnit r.obj) with arrived := (unitSync s (objUnit r.obj)).arrived ++ [r] }) ∧
      (∀ o src tid, q.body = .cancel o src tid → ∃ t, run = .next t ∧ t.mesh = s.mesh.erase q ∧ unitSync t (objUnit o) =
        { unitSync s (objUnit o) with cancels := (unitSync s (objUnit o)).cancels ++ [(src, tid)] }) ∧
      (∀ g m l, q.body = .grad g → q.dst = .mc m → q.src = .lp l → ∃ t, run = .next t ∧ t.mesh = s.mesh.erase q ∧
        (getMc t m).stn = { (getMc s m).stn with arrived := (getMc s m).stn.arrived ++ [g] }) ∧
      (∀ g m, q.body = .grad g → q.dst = .mc m → (∀ l, q.src ≠ .lp l) → ∃ t, run = .next t ∧ t.mesh = s.mesh.erase q ∧ (getMc t m).stn = (getMc s m).stn ∧
        fld (mcReg (getMc t m) 0x210) 15 0 = min 0xFFFF (fld (mcReg (getMc s m) 0x210) 15 0 + 1)) ∧
      (∀ cl ch page j e, q.body = .pageRead cl ch page → (getChan (getCl s cl) ch).job = some j → page ∈ j.pages → j.pid = q.pid →
        pageRefusal s q.pid 2 (page * 2 ^ 21) false = none → pageOf s q.pid 2 (page * 2 ^ 21) = some e → ∃ t, run = .next t ∧ (∃ ms, t.mesh = s.mesh.erase q ++ ms ∧ (dSpace j.a.d ≠ 2 ∨ j.body = true → ms = [])) ∧
        (let us := pageUnits j page
         let more := j.body = true ∨ j.pages.erase page ≠ [] ∨ j.tags ≠ []
         (more → (getChan (getCl t cl) ch).job = some { j with pages := j.pages.erase page } ∧
           (ecc = .clean → t.mcs = s.mcs) ∧
           ((∀ b ∈ ecc.bursts, b.fixed = true ∧ b.unit < us.length) → McRegs { s with clusters := [], mesh := [], hub := Hub.reset } { t with clusters := [], mesh := [], hub := Hub.reset } (ptPkg e) [0x204] ∧
             mcReg (getMc t (ptPkg e)) 0x204 = w32 (min 0xFFFFFFFF ((mcReg (getMc s (ptPkg e)) 0x204).toNat + ecc.bursts.length))) ∧
           (∀ u, ecc.bursts = [{ unit := u, fixed := false }] → u < us.length → (getMc s (ptPkg e)).poison.length < 256 → (ptFrame e, us.getD u 0) ∈ (getMc t (ptPkg e)).poison)) ∧
         (let rs := bodyRanges s (jobWho s cl ch j) j.a
          ¬ more → ecc = .clean → dSpace j.a.d = 2 → (∀ x ∈ rangePages rs, pageOf s j.pid 2 (x * 2 ^ 21) ≠ none) → ∃ j', (getChan (getCl t cl) ch).job = some j' ∧
            j'.body = true ∧ j'.reads = rs ∧ j'.pages = rangePages rs ∧ t.mcs = s.mcs))) ∧
      (∀ bytes l, q.body = .link bytes → q.dst = .lp l → (∀ l', q.src ≠ .lp l') → ownCheck s q.pid (lpid (getLnk s l)) (lnkOn (getLnk s l)) false = none →
        ∃ t, run = .next t ∧ t.mesh = s.mesh.erase q ∧ (getLnk t l).txq = (getLnk s l).txq ++ meshItems bytes))

/-- R267, R268, R269, R270, R271, R272, R409: a tile at a sink of an enabled group opens its record's sum at rank 0, adds to the sum that waits, or waits itself; another token is
counted. A sum that goes on waits in the group while its port carries no session of the partition. A result of a step that the stations take goes to its station in eight packets, and after the last record of the round the next step begins.

R268, R273, R274, R366, R382, R409: a group is enabled for its writer if no check stands against it, the lock of its oscillator before the others (log 129), with empty stores and the regions of its bindings as they are then; cleared, its store entries
are discarded, those that wait for a flit slot too, and the tokens that wait at its sinks are counted as misrouted. -/
def Obligations.Reductions : Prop :=
  (∀ (s : State) (lp : LpIx) (g : Fin 4) (b : Fin 8) (tk : Token) (ts : List Token), pmActive s = true →
     let k := getLnk s lp.val
     let x := group k g.val
     let run := exec (.sinkToken lp g b) s
     (tget k.sinkq (g.val * 8 + b.val) [] = tk :: ts →
       (rgOn k g.val = false → run = .next s) ∧
       (rgOn k g.val = true → (∀ bytes, tk.body ≠ .tile false 32 32 bytes) → ∃ t, run = .next t ∧ tget (getLnk t lp.val).sinkq (g.val * 8 + b.val) [] = ts ∧
         fld (rgStat (getLnk t lp.val) g.val) 31 16 = (fld (rgStat k g.val) 31 16 + 1) % 65536 ∧ (getLnk t lp.val).groups = k.groups) ∧
       (∀ bytes, rgOn k g.val = true → tk.body = .tile false 32 32 bytes →
         ((tk.tag, b.val) ∈ x.used ∨ 192 ≤ storeLocal s lp.val ∨ 256 ≤ storeAll s lp.val → run = .next (setLnk s lp.val (rgHeld k g.val))) ∧
         ((tk.tag, b.val) ∉ x.used → storeLocal s lp.val < 192 → storeAll s lp.val < 256 →
           let e : RedEntry := { step := rgStep k g.val, tag := tk.tag, bind := b.val, elems := tileEls16 bytes }
           let took := fun (t : State) => tget (getLnk t lp.val).sinkq (g.val * 8 + b.val) [] = ts ∧ (group (getLnk t lp.val) g.val).used = x.used ++ [(tk.tag, b.val)]
           let sent := fun (t : State) (d : RedEntry) =>
             (linkServes s (rgNext k g.val) (rgPid k g.val) = true → (getLnk t (rgNext k g.val)).txq = (getLnk s (rgNext k g.val)).txq ++ redItems false (rgGid k g.val) d) ∧
             (linkServes s (rgNext k g.val) (rgPid k g.val) = false → (group (getLnk t lp.val) g.val).toNext = x.toNext ++ [d])
           (rgRank k g.val = 0 → rgLast k g.val = 0 → ∃ t, run = .next t ∧ took t ∧
             (group (getLnk t lp.val) g.val).results = x.results ++ [{ e with elems := redConvert (redWiden e.elems) }]) ∧
           (rgRank k g.val = 0 → rgLast k g.val ≠ 0 → ∃ t, run = .next t ∧ took t ∧ sent t { e with elems := redWiden e.elems }) ∧
           (∀ p, rgRank k g.val ≠ 0 → x.parts.find? (fun p => p.step == e.step && p.tag == e.tag) = some p → ∃ t, run = .next t ∧ took t ∧
             (group (getLnk t lp.val) g.val).parts = x.parts.erase p ∧
             (rgRank k g.val = rgLast k g.val → (group (getLnk t lp.val) g.val).results = x.results ++ [{ e with elems := redConvert (redAdd p.elems e.elems) }]) ∧
             (rgRank k g.val ≠ rgLast k g.val → sent t { e with elems := redAdd p.elems e.elems })) ∧
           (rgRank k g.val ≠ 0 → x.parts.find? (fun p => p.step == e.step && p.tag == e.tag) = none → ∃ t, run = .next t ∧ took t ∧
             (group (getLnk t lp.val) g.val).own = x.own ++ [e] ∧ (group (getLnk t lp.val) g.val).results = x.results)))) ∧
     (∀ r, rgOn k g.val = true → x.results.find? (fun r => stepOpenFor s (rgPid k g.val) r.step) = some r →
       let z := tget x.latch r.bind (0, 0x4000)
       let done := fld (lnkReg k (rgOff g.val + 0x10)) 16 0 + 1
       ∃ t, exec (.resultDelivery lp g) s = .next t ∧ (group (getLnk t lp.val) g.val).results = x.results.erase r ∧
         t.mesh = s.mesh ++ gradPackets (rgPid k g.val) lp.val (fld (rgSink k g.val r.bind) 9 6) (z.1 + (rgBase k g.val r.bind + r.tag.toNat) * z.2) r.step r.elems ∧
         (done = rgTiles k g.val → rgStep (getLnk t lp.val) g.val = rgStep k g.val + 1 ∧ fld (lnkReg (getLnk t lp.val) (rgOff g.val + 0x10)) 16 0 = 0 ∧
           (group (getLnk t lp.val) g.val).used = []) ∧
         (done ≠ rgTiles k g.val → rgStep (getLnk t lp.val) g.val = rgStep k g.val ∧ fld (lnkReg (getLnk t lp.val) (rgOff g.val + 0x10)) 16 0 = done % 2 ^ 17) ∧
         { t with lnks := [], mesh := [] } = { s with lnks := [], mesh := [] } ∧ (∀ d, d ≠ lp.val → getLnk t d = getLnk s d)) ∧
     (rgOn k g.val = true → x.results ≠ [] → (∀ r ∈ x.results, stepOpenFor s (rgPid k g.val) r.step = false) →
       exec (.resultDelivery lp g) s = .next (setLnk s lp.val (rgHeld k g.val)))) ∧
  (∀ (s : State) (fn : Fn) (lp : LpIx) (g : Fin 4) (v : Word) (pid : Nat),
     let k := getLnk s lp.val
     let old := lnkReg k (rgOff g.val)
     let new := mwApply 1 old v
     let c := rgCheck s lp.val g.val pid
     Admits s fn (.lp lp.val) (rgRefusal s lp.val g.val (mwStaysOn old v)) pid → pid < 8 →
     (bit old 0 = false → bit new 0 = true →
       (locked s (.lp lp.val) = false → c = 0x10) ∧ (locked s (.lp lp.val) = true → (rgLast k g.val < rgRank k g.val ∨ rgTiles k g.val = 0) → c = 0x06) ∧
       ∃ t, exec (.rgCtlEnable fn lp g v) s = .next t ∧ { noDd t with lnks := [] } = { noDd s with lnks := [] } ∧ (∀ d, d ≠ lp.val → getLnk t d = getLnk s d) ∧
         (c = 0 → rgOn (getLnk t lp.val) g.val = true ∧ rgPid (getLnk t lp.val) g.val = pid ∧ fld (rgStat (getLnk t lp.val) g.val) 15 8 = 0 ∧
           group (getLnk t lp.val) g.val = { RedGroup.reset with latch := rgLatch s k g.val } ∧ lnkReg (getLnk t lp.val) (rgOff g.val + 0x10) = 0) ∧
         (c ≠ 0 → rgOn (getLnk t lp.val) g.val = rgOn k g.val ∧ fld (rgStat (getLnk t lp.val) g.val) 15 8 = c % 256 ∧ (getLnk t lp.val).groups = k.groups ∧
           bit (lnkReg (getLnk t lp.val) (rgOff g.val)) 0 = false)) ∧
     (bit old 0 = true → bit new 0 = false → ∃ t, exec (.rgCtlDisable fn lp g v) s = .next t ∧ rgOn (getLnk t lp.val) g.val = false ∧
       group (getLnk t lp.val) g.val = RedGroup.reset ∧ (rgRank k g.val < rgLast k g.val → ∀ i ∈ (getLnk t (rgNext k g.val)).txq, i.typ = 6 → i.info.toNat % 256 ≠ rgGid k g.val) ∧
       (0 < rgRank k g.val → ∀ i ∈ (getLnk t (rgPrev k g.val)).txq, i.typ = 7 → i.info.toNat % 256 ≠ rgGid k g.val) ∧ (∀ i, i < 8 → tget (getLnk t lp.val).sinkq (g.val * 8 + i) [] = []) ∧
       (∀ h, h ≠ g.val → group (getLnk t lp.val) h = group k h) ∧
       ((∃ i, i < 8 ∧ tget k.sinkq (g.val * 8 + i) [] ≠ []) → bit (partReg (getPart t (rgPid k g.val)) 0x40) 2 = true) ∧ t.cores = s.cores ∧ t.mcs = s.mcs))

/-- R284, R285, R286, R289, R290, R345: training. A port in RETRAIN leaves for DETECT; DETECT goes to EQUALISE with at least 4 lanes each way, EQUALISE to ALIGN with the spare in the place of a lane that is lost or to FAILED (LANES), ALIGN to
IDENT, where the port presents its node, domain and index; IDENT to SECURE if the peer's node fits, where the key agreement begins, in FIXED mode with the next session number of counter 2, else to DETECT for an alternate and FAILED (NODE) for another; SECURE to ACTIVE
with the keys that the secret and the two session numbers give, that of the lower end first, or to FAILED (KEYMODE, ATTEST). A rekey loads the other slot. A port in another state stays. A spare that failed its self-test is no lane (R337). No keys come in the fixer pass (R293). That a session held over a
RETRAIN loads the other slot (log 34), and that an alternate whose peer does not fit goes back to DETECT (log 43), is the model's choice.

R284, R285, R286, R287, R288, R289, R366, R380: LNK_CTL and HUB_NODE. ENABLE starts training for its writer if no check stands against it; cleared, the session ends. REKEY starts a key agreement and SPARE a
takeover, or the reason of their refusal is recorded; the port also rekeys on its own, but for the fixer pass. That a spare that failed its self-test refuses SPARE is the model's choice (log 42). HUB_NODE takes a write only while every port is DISABLED.

R288, R340, R342, R345: a lane fault of an ACTIVE port. Where the spare can take over, the receiver asks the far end, over the reverse direction or in the spare's frame markers, and discards flits until lock is regained; then the spare counts as used, MOLT is logged, what
was not acknowledged is resent and asked for again. Where it cannot, the port fails (SECOND_LANE). The far transmitter moves to its spare. A molt that the lane waited for is cancelled by its fault, and done when lock is regained without one. That a bad spare fails the port with SECOND_LANE, and that a lane which has moved stays where it is, is the model's
choice (log 42). -/
def Obligations.LinkPorts : Prop :=
  (∀ (s : State) (lp : LpIx) (rx tx : BitVec 5) (node : BitVec 16) (domain : BitVec 8) (port : BitVec 4) (far : FarSecure),
     let k := getLnk s lp.val
     let c := lnkReg k 0x4
     let fixed := lnkFixed s k
     let n0 := s.hub.rot.sessions
     let at_ := fun (t : State) => getLnk t lp.val
     let failed := fun (i : Instr) (code : Nat) => ∃ t, exec i s = .next t ∧ lst (at_ t) = 8 ∧ fld (lnkReg (at_ t) 0x8) 27 24 = code ∧
       bit (hubReg t.hub 0x10) 3 = true ∧ bit (partReg (getPart t (lpid k)) 0x40) 11 = true ∧ t.cores = s.cores ∧ t.clusters = s.clusters ∧ t.mcs = s.mcs
     let loads := fun (t : State) (keys : LinkKeys) (d : DirKey × DirKey) => (at_ t).keys.tx = tset keys.tx (otherSlot k) d.1 ∧ (at_ t).keys.rx = tset keys.rx (otherSlot k) d.2 ∧
       (at_ t).keys.fresh = true ∧ (at_ t).keys.rekey = false ∧ (at_ t).keys.ctr = keys.ctr ∧ bit (lnkReg (at_ t) 0x8) 13 = bit (lnkReg k 0x8) 13
     ((lst k = 7 → ∃ t, exec (.detect lp rx tx) s = .next t ∧ lst (at_ t) = 1 ∧ LnkRegs s t lp.val [0x8]) ∧
      (lst k = 1 → 4 ≤ lanes rx → 4 ≤ lanes tx → ∃ t, exec (.detect lp rx tx) s = .next t ∧ lst (at_ t) = 2 ∧ LnkRegs s t lp.val [0x8]) ∧
      (lst k ≠ 7 → ¬(lst k = 1 ∧ 4 ≤ lanes rx ∧ 4 ≤ lanes tx) → exec (.detect lp rx tx) s = .next s)) ∧
     (let rx' := if bit k.spareBad 0 then rx &&& 0xF#5 else rx
      let tx' := if bit k.spareBad 1 then tx &&& 0xF#5 else tx
      (lst k = 2 → lanes rx' < 4 ∨ lanes tx' < 4 → failed (.equalise lp rx tx) 1) ∧
      (lst k = 2 → 4 ≤ lanes rx' → 4 ≤ lanes tx' → ∃ t, exec (.equalise lp rx tx) s = .next t ∧ lst (at_ t) = 3 ∧
         fld (lnkReg (at_ t) 0x8) 6 4 = (lostLane rx').getD 7 ∧ bit (lnkReg (at_ t) 0x8) 7 = (lostLane tx').isSome ∧ (at_ t).txLane = lostLane tx' ∧
         bit (at_ t).spareBad 0 = !(bit rx' 4) ∧ bit (at_ t).spareBad 1 = !(bit tx' 4) ∧
         (at_ t).fault = none ∧ (∀ d, d ≠ lp.val → getLnk t d = getLnk s d) ∧ t.cores = s.cores ∧ t.parts = s.parts) ∧
      (lst k ≠ 2 → exec (.equalise lp rx tx) s = .next s)) ∧
     ((lst k = 3 → ∃ t, exec (.align lp) s = .next t ∧ lst (at_ t) = 4 ∧
         (at_ t).txq = k.txq ++ [ctrlItem (.ident (fld (hubReg s.hub 0x8) 15 0) (fld (hubReg s.hub 0x8) 23 16) lp.val)] ∧
         { t with lnks := [] } = { s with lnks := [] } ∧ ∀ d, d ≠ lp.val → getLnk t d = getLnk s d) ∧ (lst k ≠ 3 → exec (.align lp) s = .next s)) ∧
     (let fits := fld c 15 0 = node.toNat ∨ (fld c 15 0 = 0xFFFF ∧ bit c 20 = false)
      (lst k = 4 → fits → ∃ t, exec (.ident lp node domain port) s = .next t ∧ lst (at_ t) = 5 ∧
         fld (lnkReg (at_ t) 0xC) 15 0 = node.toNat ∧ fld (lnkReg (at_ t) 0xC) 23 16 = domain.toNat ∧
         fld (lnkReg (at_ t) 0xC) 27 24 = port.toNat ∧ bit (lnkReg (at_ t) 0xC) 28 = true ∧
         (fixed = true → n0 ≠ 0xFFFFFFFF#32 → t.hub.rot.sessions = n0 + 1 ∧ (at_ t).keys.mine = some (n0 + 1).toNat ∧ (at_ t).txq = k.txq ++ [ctrlItem (.share true (n0 + 1).toNat)]) ∧
         (fixed = true → n0 = 0xFFFFFFFF#32 → t.hub = s.hub ∧ (at_ t).keys.mine = none ∧ (at_ t).txq = k.txq) ∧
         (fixed = false → t.hub = s.hub ∧ ∃ m, (at_ t).keys.mine = some m ∧ (at_ t).txq = k.txq ++ [ctrlItem (.share false m)]) ∧
         t.cores = s.cores ∧ t.parts = s.parts ∧ ∀ d, d ≠ lp.val → getLnk t d = getLnk s d) ∧
      (lst k = 4 → ¬ fits → bit c 20 = true → ∃ t, exec (.ident lp node domain port) s = .next t ∧ lst (at_ t) = 1 ∧
         bit (lnkReg (at_ t) 0xC) 28 = false ∧ LnkRegs s t lp.val [0x8, 0xC]) ∧
      (lst k = 4 → ¬ fits → bit c 20 = false → failed (.ident lp node domain port) 2) ∧ (lst k ≠ 4 → exec (.ident lp node domain port) s = .next s)) ∧
     (let out := fixed = true ∧ k.keys.mine = none
      let free := inPass s (lpid k) = false
      (lst k = 5 ∨ lst k = 6 → ¬ free → exec (.secure lp far) s = .next s) ∧
      (free → lst k = 5 → (far.fixed ≠ fixed ∨ out) → failed (.secure lp far) 3) ∧
      (free → lst k = 5 → far.fixed = fixed → ¬ out → far.sigOk = false → failed (.secure lp far) 4) ∧
      (free → lst k = 5 → far.fixed = fixed → ¬ out → far.sigOk = true → ∃ t, exec (.secure lp far) s = .next t ∧ lst (at_ t) = 6 ∧
         (far.held = false ∨ k.keys.tx = [] → (at_ t).keys.tx = [(0, (agreed s lp.val far).1)] ∧ (at_ t).keys.rx = [(0, (agreed s lp.val far).2)] ∧ (at_ t).keys.ctr = 0 ∧ bit (lnkReg (at_ t) 0x8) 13 = false) ∧
         (far.held = true → k.keys.tx ≠ [] → loads t k.keys (agreed s lp.val far)) ∧
         t.hub = s.hub ∧ t.cores = s.cores ∧ t.clusters = s.clusters ∧ t.mcs = s.mcs) ∧
      (free → lst k = 6 → far.fixed = fixed → far.sigOk = true → k.keys.rekey = true → ∃ t, exec (.secure lp far) s = .next t ∧ lst (at_ t) = 6 ∧ loads t k.keys (agreed s lp.val far) ∧ t.hub = s.hub) ∧
      (free → lst k = 6 → far.fixed = fixed → far.sigOk = true → k.keys.rekey = false → ¬(fixed = true ∧ n0 = 0xFFFFFFFF#32) → ∃ t m, exec (.secure lp far) s = .next t ∧ lst (at_ t) = 6 ∧
         (at_ t).txq = k.txq ++ [ctrlItem (.share fixed m)] ∧ (at_ t).keys.mine = some m ∧ (at_ t).keys.fresh = true ∧ t.hub.rot.sessions = n0 + (if fixed then 1 else 0))) ∧
     (∀ m, fixed = true → k.keys.mine = some m →
       let low := fld (hubReg s.hub 0x8) 15 0 * 16 + lp.val < fld (lnkReg k 0xC) 15 0 * 16 + fld (lnkReg k 0xC) 27 24
       let w := fun (info : List Nat) (b : Bool) => Config.linkKey (Config.ecdhStatic far.pub) info b
       let key := fun (x : BitVec 288) => ({ key := x.setWidth 256, salt := (x >>> 256).setWidth 32 } : DirKey)
       (low → agreed s lp.val far = (key (w [m, far.session.toNat] true), key (w [m, far.session.toNat] false))) ∧
       (¬ low → agreed s lp.val far = (key (w [far.session.toNat, m] false), key (w [far.session.toNat, m] true))))) ∧
  (∀ (s : State) (fn : Fn) (lp : LpIx) (v : Word) (pid : Nat),
     let l := lp.val
     let k := getLnk s l
     let old := lnkReg k 0x0
     let new := mwApply 0x1F old v
     let c := lnkCheck s l pid
     let adm := Admits s fn (.lp l) (lnkRefusal s l (mwStaysOn old v)) pid
     let out := lnkFixed s k = true ∧ s.hub.rot.sessions = 0xFFFFFFFF#32
     let begins := fun (i : Instr) => ∃ t n, exec i s = .next t ∧ (getLnk t l).keys = { k.keys with rekey := true, due := false, mine := some n } ∧
         (getLnk t l).txq = k.txq ++ [ctrlItem (.share (lnkFixed s k) n)] ∧ t.hub.rot.sessions = s.hub.rot.sessions + (if lnkFixed s k then 1 else 0) ∧
         (lnkFixed s k = true → n = t.hub.rot.sessions.toNat)
     (adm → pid < 8 → bit old 0 = false → bit new 0 = true → bit new 1 = false → bit new 2 = false →
       (bit (hubReg s.hub 0x1024) l = false → c = 0x10) ∧ (bit (hubReg s.hub 0x1024) l = true → portOwner s l ≠ some pid → c = 0x0E) ∧
       ∃ t, exec (.lnkCtlEnable fn lp v) s = .next t ∧ (∀ d, d ≠ l → getLnk t d = getLnk s d) ∧ t.cores = s.cores ∧ t.parts = s.parts ∧
         (c = 0 → lnkOn (getLnk t l) = true ∧ lst (getLnk t l) = 1 ∧ lpid (getLnk t l) = pid ∧ fld (lnkReg (getLnk t l) 0x8) 23 16 = 0 ∧
           fld (lnkReg (getLnk t l) 0x8) 27 24 = 0 ∧ fld (hubReg t.hub 0x100C) 11 0 = (fld (hubReg s.hub 0x100C) 11 0 + 18) % 4096) ∧
         (c ≠ 0 → lnkOn (getLnk t l) = false ∧ fld (lnkReg (getLnk t l) 0x8) 23 16 = c % 256 ∧ lst (getLnk t l) = lst k ∧ (noDd t).hub = (noDd s).hub)) ∧
     (adm → bit old 0 = true → bit new 0 = false → bit new 1 = false → bit new 2 = false → ∃ t, exec (.lnkCtlDisable fn lp v) s = .next t ∧
       lnkOn (getLnk t l) = false ∧ lst (getLnk t l) = 0 ∧ fld (lnkReg (getLnk t l) 0x8) 13 12 = 0 ∧ (getLnk t l).keys.tx = [] ∧ (getLnk t l).keys.rx = [] ∧ (getLnk t l).grpRx = [] ∧
       t.cores = s.cores ∧ t.parts = s.parts) ∧
     (adm → bit new 0 = bit old 0 → bit new 1 = true → bit new 2 = false →
       let gives := fun (n : Nat) => ∃ t, exec (.rekey fn lp v) s = .next t ∧ fld (lnkReg (getLnk t l) 0x8) 23 16 = n ∧ (getLnk t l).keys = k.keys ∧ LnkRegs s t l [0x0, 0x8]
       (out → gives 0x05) ∧ (¬ out → lst k ≠ 6 → gives 0x08) ∧ (¬ out → lst k = 6 → (k.fault.isSome = true ∨ k.keys.rekey = true) → gives 0x0D) ∧
       (¬ out → lst k = 6 → k.fault = none → k.keys.rekey = false → begins (.rekey fn lp v))) ∧
     (lst k = 6 → inPass s (lpid k) = true → exec (.rekeyCounter lp) s = .next s) ∧
     (lst k = 6 → inPass s (lpid k) = false → k.keys.rekey = false → ¬ out → (k.fault = none → begins (.rekeyCounter lp)) ∧
       (k.fault ≠ none → exec (.rekeyCounter lp) s = .next (setLnk s l { k with keys := { k.keys with due := true } }))) ∧
     (adm → bit new 0 = bit old 0 → bit new 1 = false → bit new 2 = true →
       let gives := fun (n : Nat) => ∃ t, exec (.spare fn lp v) s = .next t ∧ fld (lnkReg (getLnk t l) 0x8) 23 16 = n ∧ (getLnk t l).fault = k.fault ∧ LnkRegs s t l [0x0, 0x8]
       ((rxSpared k = true ∨ k.fault.isSome = true ∨ bit k.spareBad 0 = true) → gives 0x09) ∧
       (rxSpared k = false → k.fault = none → bit k.spareBad 0 = false → k.keys.rekey = true → gives 0x0D) ∧
       (rxSpared k = false → k.fault = none → bit k.spareBad 0 = false → k.keys.rekey = false → lst k = 6 → ∃ t, exec (.spare fn lp v) s = .next t ∧
         (getLnk t l).fault = some (fld new 4 3) ∧ (getLnk t l).txq = k.txq ++ [ctrlItem (.laneFault (fld new 4 3))] ∧ (getLnk t l).deaf = k.deaf)) ∧
     (HubAdmits s fn → ((∀ n, n < 16 → lst (getLnk s n) = 0) → ∃ t, exec (.hubNode fn v) s = .next t ∧ hubReg t.hub 0x8 = v &&& 0x00FFFFFF#32 ∧ HubRegs s t [0x8]) ∧
       ((∃ n, n < 16 ∧ lst (getLnk s n) ≠ 0) → exec (.hubNode fn v) s = .next s))) ∧
  (∀ (s : State) (lp : LpIx) (lane : Fin 4) (down : Bool),
     let l := lp.val
     let k := getLnk s l
     let u : FaultUnit := .lane lp false lane
     let usable := rxSpared k = false ∧ bit k.spareBad 0 = false ∧ (k.fault = none ∨ (k.fault = some lane.val ∧ u ∈ s.hub.molts))
     let fails := fun (t : State) => lst (getLnk t l) = 8 ∧ fld (lnkReg (getLnk t l) 0x8) 27 24 = 6 ∧ (∀ p, portOwner s l = some p → bit (partReg (getPart t p) 0x1A0) 1 = true) ∧
       bit (hubReg t.hub 0x10) 0 = true ∧ t.cores = s.cores ∧ t.mcs = s.mcs
     lst k = 6 →
     (¬ usable → ∃ t, exec (.laneFaultDeclared lp lane down) s = .next t ∧ fails t) ∧
     (usable → ∃ t, exec (.laneFaultDeclared lp lane down) s = .next t ∧ lst (getLnk t l) = 6 ∧
       (getLnk t l).fault = some lane.val ∧ (getLnk t l).deaf = true ∧ u ∉ t.hub.molts ∧
       (down = false → (getLnk t l).txq = k.txq ++ [ctrlItem (.laneFault lane.val)]) ∧ (down = true → (getLnk t l).txq = k.txq ∧ Msg.marker l lane.val ∈ t.outbox) ∧
       (∀ p, portOwner s l = some p → fld (partReg (getPart t p) 0x1A0) 15 8 = 4) ∧ bit (hubReg t.hub 0x10) 0 = true ∧ (∀ d, d ≠ l → getLnk t d = getLnk s d) ∧ t.cores = s.cores ∧ t.mcs = s.mcs) ∧
     (k.txLane = some lane.val → exec (.laneFault lp lane) s = .next s) ∧
     (k.txLane ≠ some lane.val → (txSpared k = true ∨ bit k.spareBad 1 = true) → ∃ t, exec (.laneFault lp lane) s = .next t ∧ fails t) ∧
     (k.txLane ≠ some lane.val → txSpared k = false → bit k.spareBad 1 = false → ∃ t, exec (.laneFault lp lane) s = .next t ∧ txSpared (getLnk t l) = true ∧ (getLnk t l).txLane = some lane.val ∧ lst (getLnk t l) = 6 ∧
       FaultUnit.lane lp true lane ∉ t.hub.molts ∧
       fld (hubReg t.hub 0x2C) 18 13 = fld (hubReg s.hub 0x2C) 18 13 - 1 ∧ (∀ p, p < 8 → partState s p ≠ ABSENT → bit (partReg (getPart t p) 0x10) 8 = true ∧
         (getPart t p).logCount = (getPart s p).logCount + 1) ∧ (∀ d, d ≠ l → getLnk t d = getLnk s d) ∧ t.cores = s.cores) ∧
     (k.fault = some lane.val → k.keys.due = false → ∃ t, exec (.lockRegained lp) s = .next t ∧ (getLnk t l).fault = none ∧ (getLnk t l).deaf = false ∧
       (getLnk t l).nakDue = true ∧ (k.replay ≠ [] → (getLnk t l).resend = some 0) ∧ fld (lnkReg (getLnk t l) 0x8) 6 4 = lane.val ∧ fld (hubReg t.hub 0x2C) 18 13 = fld (hubReg s.hub 0x2C) 18 13 - 1 ∧
       (u ∈ s.hub.molts → MoltDone s t u) ∧ Remapped s t ∧ (∀ d, d ≠ l → getLnk t d = getLnk s d) ∧ t.cores = s.cores))

/-- R277, R278, R279, R280, R281, R282, R283, R292, R293: what a port whose lanes carry flits makes of one. A flit whose CRC does not stand at once or after the correction of up to 15 symbols in each codeword is counted and asked for again; IDLE serves only acknowledgement and credit; a flit
out of order is discarded; a CTRL flit and one of a reserved type are used up; another next in order waits for its group's TAG. A group that AES-256-GCM verifies under the key slot, salt and counter of its TAG is delivered; one that it does not is discarded, and the port retrains. What a group holds is delivered: a packet to its unit, a partial or a result to its group, print data to its pages, or held while they have no room. Stores
that have gone are not answered on SCRUB (log 136). The model's choices are also the order within a slot and where a group ends (log 41) and the form of link payload (log 65). A flit whose payload is not 240 bytes is no command of the table.

R264, R278, R279, R280, R281, R282, R283, R285, R290, R293: a flit slot of a port that holds no verified flit back and no sum. While its partition is in the fixer pass it sends IDLE with SCRUB. Else a flit that is to be resent goes first; a full replay buffer sends
IDLE; a group that must close sends its TAG; then a sync response, CTRL, other responses, requests, each with credit of its class; else TAG or IDLE. A payload is its stretch of the group's ciphertext, a TAG holds counter and tag. Before ACTIVE only CTRL flits go. A block that an alternate serves sends nothing on its own lanes. A key whose counter is spent is used for no new group:
the port rekeys. The order within a slot and where a group ends (log 41), and that a spent key opens no group (log 43), are the model's choices. -/
def Obligations.Flits : Prop :=
  (∀ (s : State) (lp : LpIx) (f : Flit) (c : FlitCheck),
     let l := lp.val
     let k := getLnk s l
     let run := exec (.flitReceive lp f c) s
     let good := f.crc = flitCrc f ∧ (c.first = true ∨ ∀ n ∈ c.errs, n ≤ 15)
     let corr := if c.first then (0 : Word) else 1
     let mine := fun (t : State) => { t with lnks := [] } = { s with lnks := [] } ∧ ∀ d, d ≠ l → getLnk t d = getLnk s d
     (f.payload.length ≠ 240 → run = .refused (.illFormed "FLIT_RECEIVE")) ∧
     (f.payload.length = 240 → (lst k < 4 ∨ 6 < lst k ∨ k.deaf = true) → run = .next s) ∧
     (f.payload.length = 240 → 4 ≤ lst k → lst k ≤ 6 → k.deaf = false →
       (¬ good → ∃ t, run = .next t ∧ getLnk t l = { k.setReg 0x24 (lnkReg k 0x24 + 1) with nakDue := true } ∧ mine t) ∧
       (good → f.typ = 0 → f.scrub = false → ∃ t, run = .next t ∧ (getLnk t l).rxSeq = k.rxSeq ∧ (getLnk t l).grpRx = k.grpRx ∧
         bit (lnkReg (getLnk t l) 0x8) 12 = false ∧ (f.crvc = false → (getLnk t l).cred0 = min 128 (k.cred0 + f.cred.toNat)) ∧
         (f.crvc = true → (getLnk t l).cred1 = min 128 (k.cred1 + f.cred.toNat)) ∧ mine t) ∧
       (good → f.typ ≠ 0 → f.seq.toNat ≠ k.rxSeq → ∃ t, run = .next t ∧ (getLnk t l).rxSeq = k.rxSeq ∧ (getLnk t l).grpRx = k.grpRx ∧ (getLnk t l).regs = k.regs ∧
         ((getLnk t l).nakDue = true ∨ (getLnk t l).ackDue = true) ∧ mine t) ∧
       (good → f.typ ≠ 0 → f.seq.toNat = k.rxSeq → f.scrub = false → ∃ t, run = .next t ∧
         (getLnk t l).rxSeq = (k.rxSeq + 1) % 4096 ∧ (getLnk t l).ackDue = true ∧
         (2 ≤ f.typ.toNat → f.typ.toNat ≤ 8 → (getLnk t l).grpRx = k.grpRx ++ [f] ∧ (getLnk t l).owed0 = k.owed0 ∧ (getLnk t l).owed1 = k.owed1) ∧
         (f.typ = 1 ∨ 8 < f.typ.toNat → (getLnk t l).grpRx = k.grpRx ∧ (getLnk t l).owed0 = (if f.vc then k.owed0 else k.owed0 + 1) ∧ (getLnk t l).owed1 = (if f.vc then k.owed1 + 1 else k.owed1)) ∧
         (f.typ.toNat ≤ 8 → lnkReg (getLnk t l) 0x20 = lnkReg k 0x20 + corr ∧ lnkReg (getLnk t l) 0x24 = lnkReg k 0x24) ∧
         (8 < f.typ.toNat → lnkReg (getLnk t l) 0x20 = lnkReg k 0x20 ∧ lnkReg (getLnk t l) 0x24 = lnkReg k 0x24 + 1) ∧
         (f.nak = false → f.ack = false → (getLnk t l).replay = k.replay) ∧
         (∀ i, (f.ack = true ∨ f.nak = true) → k.replay.findIdx? (fun x => x.seq.toNat == f.ackseq.toNat) = some i → (getLnk t l).replay = k.replay.drop (i + 1)) ∧ mine t) ∧
       (good → f.typ = 0 → f.scrub = true → ∃ t, run = .next t ∧ bit (lnkReg (getLnk t l) 0x8) 12 = true ∧ (getLnk t (servedBlock s l)).fwd = [] ∧
         ((∀ e ∈ (getLnk s (servedBlock s l)).fwd, e.2.op = .st ∧ reqUnsent s l (servedBlock s l) e.1 = false) → t.mesh = s.mesh ∧ t.cores = s.cores))) ∧
     (lst k ≠ 6 → ∀ plain, exec (.tag lp plain) s = .next s) ∧
     (let grp := k.grpRx.takeWhile (fun f => f.typ != 2)
      lst k = 6 → ∀ tg rest plain, k.grpRx.drop grp.length = tg :: rest →
       let verifies := ∃ d, tfind k.keys.rx (b2n tg.keysel) = some d ∧ tg.info.toNat % 16 = grp.length ∧
         (let g := Config.gcm d.key (d.salt ++ BitVec.ofNat 64 (leNat (tg.payload.take 8))) (grp.flatMap flitAad) plain
          g.1 = grp.flatMap (·.payload) ∧ leBytes 16 g.2.toNat = (tg.payload.drop 8).take 16)
       (¬ verifies → ∃ t, exec (.tag lp plain) s = .next t ∧ (getLnk t l).grpRx = rest ∧ lnkReg (getLnk t l) 0x2C = lnkReg k 0x2C + 1 ∧
         (lst (getLnk t l) = 7 ∨ lst (getLnk t l) = 8) ∧ (getLnk t l).retrains = k.retrains + 1 ∧ t.mesh = s.mesh ∧ t.cores = s.cores ∧ t.mcs = s.mcs) ∧
       (verifies → grp = [] → ∃ t, exec (.tag lp plain) s = .next t ∧ (getLnk t l).grpRx = rest ∧ (getLnk t l).regs = k.regs ∧ mine t) ∧
       (∀ g cl n, verifies → grp = [g] → g.typ = 4 → g.vc = false → tg.vc = false → k.held = [] → inPass s (lpid k) = false → plain.length = 240 →
         plain.take 8 = [0, 0, 2, 0, BitVec.ofNat 8 n, BitVec.ofNat 8 cl, 0, 0] →
         n < 128 → cl < 160 → ∃ t q, exec (.tag lp plain) s = .next t ∧
           t.mesh = s.mesh ++ [{ pid := lpid k, src := .lp (servedBlock s l), dst := .cluster cl, tid := g.info.toNat % 65536, body := .sync q }] ∧
           q.op = .faa ∧ q.src = .far (servedBlock s l) ∧ q.pid = lpid k ∧ (∃ h1 h2, q.obj = .hive ⟨cl, h1⟩ ⟨n, h2⟩) ∧ q.arg = w32 (leNat ((plain.drop 8).take 4)) ∧
           (getLnk t l).owed0 = k.owed0 + 2 ∧ (getLnk t l).grpRx = rest) ∧
       (∀ g, verifies → grp = [g] → k.held = [] → inPass s (lpid k) = false → plain.length = 240 →
         let b := servedBlock s l
         let kb := getLnk s b
         let info := g.info.toNat
         let g1 : Flit := { g with payload := plain }
         let out := exec (.tag lp plain) s
         (g.typ = 3 → let bytes := (if info % 2 = 0 then [] else kb.frag) ++ plain
           (info / 2 % 2 = 0 → ∃ t, out = .next t ∧ (getLnk t b).frag = bytes ∧ t.mesh = s.mesh) ∧
           (∀ n, info / 2 % 2 = 1 → headerNode bytes = some n → (∀ x, n ≠ .lp x) → ∃ t, out = .next t ∧ (getLnk t b).frag = [] ∧
             t.mesh = s.mesh ++ [{ pid := lpid k, src := .lp b, dst := n, tid := 0, body := .link (packetBytes bytes) }])) ∧
         (g.typ = 6 → let bytes := redBytes kb.redPart g1
           let e := redEntry false g1 bytes
           (info / 2 ^ 40 % 32 < 17 → ∃ t, out = .next t ∧ (getLnk t b).redPart = bytes ∧ t.mesh = s.mesh) ∧
           (∀ a r, 17 ≤ info / 2 ^ 40 % 32 → homeOf s b (lpid k) (info % 256) false = some (a, r) → storeAll s a < 256 →
             let x := group (getLnk s a) r
             (x.own.find? (fun y => y.step == e.step && y.tag == e.tag) = none → ∃ t, out = .next t ∧ (group (getLnk t a) r).parts = x.parts ++ [e]) ∧
             (∀ y, x.own.find? (fun y => y.step == e.step && y.tag == e.tag) = some y → ∃ t, out = .next t ∧ (group (getLnk t a) r).own = x.own.erase y ∧
               (rgRank (getLnk s a) r = rgLast (getLnk s a) r → (group (getLnk t a) r).results = x.results ++ [{ y with elems := redConvert (redAdd e.elems y.elems) }])))) ∧
         (g.typ = 7 → let bytes := redBytes kb.redRes g1
           (info / 2 ^ 40 % 32 < 8 → ∃ t, out = .next t ∧ (getLnk t b).redRes = bytes ∧ t.mesh = s.mesh) ∧
           (∀ a r, 8 ≤ info / 2 ^ 40 % 32 → homeOf s b (lpid k) (info % 256) true = some (a, r) →
             ∃ t n, out = .next t ∧ (group (getLnk t a) r).results = (group (getLnk s a) r).results ++ [{ redEntry true g1 bytes with bind := n }])) ∧
         (g.typ = 8 → let n := info % 2 ^ 32
           let z := printLen kb n plain
           let stop := min (240 * (n + 1)) z.2
           let at_ := fld (lnkReg kb 0x10) 17 0 * 2 ^ 21 + 240 * n
           let bytes := plain.take (stop - 240 * n)
           let stuck := fld (lnkReg kb 0x14) 17 0 * 2 ^ 21 < stop ∨ writeFail s { pid := lpid k, cl := 0, stn := false } 2 [(at_, bytes)] ≠ none
           let done := z.2 ≤ 240 * (n + 1) ∧ 64 + 32 * z.1 ≤ 240 * (n + 1)
           (g.vc = false → stuck → ∃ t, out = .next t ∧ (getLnk t l).held = [g1] ∧ t.mcs = s.mcs ∧ t.parts = s.parts) ∧
           (∀ e, ¬ stuck → pageOf s (lpid k) 2 at_ = some e → at_ % 2 ^ 21 + bytes.length ≤ 2 ^ 21 → (∀ u, u < 8192 → subDown (getMc s (ptPkg e)) (ptFrame e) u = false) → ∃ t, out = .next t ∧
             mreads (frameMem (getMc t (ptPkg e)) (ptFrame e)) (at_ % 2 ^ 21) bytes.length = bytes ∧
             fld (lnkReg (getLnk t b) 0x18) 17 0 = (stop + 2 ^ 21 - 1) / 2 ^ 21 % 2 ^ 18 ∧
             (done → bit (lnkReg (getLnk t b) 0x18) 31 = true ∧ bit (partReg (getPart t (lpid k)) 0x40) 9 = true) ∧
             (¬ done → bit (lnkReg (getLnk t b) 0x18) 31 = bit (lnkReg kb 0x18) 31)))))) ∧
  (∀ (s : State) (lp : LpIx),
     let l := lp.val
     let k := getLnk s l
     let b := servedBlock s l
     let q := if lst k = 6 ∧ lanesOf s b = l then (getLnk s b).txq else []
     let run := exec (.flitSlot lp) s
     let sync := q.find? (fun i => i.typ == 5)
     let rsp := q.find? (fun i => i.vc && i.typ != 5)
     let req := q.find? (fun i => !i.vc && i.typ != 1)
     let ctrl := k.txq.find? (fun i => i.typ == 1)
     let sent := fun (t : State) (f : Flit) => t.outbox = s.outbox ++ [.flit l f] ∧ f.crc = flitCrc f
     let idle := fun (scrub : Bool) => ∃ t f, run = .next t ∧ sent t f ∧ f.typ = 0 ∧ f.scrub = scrub ∧ (getLnk t l).replay = k.replay ∧ (getLnk t l).txSeq = k.txSeq ∧
       (getLnk t l).ackDue = false ∧ (getLnk t l).nakDue = false ∧ (getLnk t l).txq = k.txq
     let kept := fun (t : State) (f : Flit) => f.seq.toNat = k.txSeq % 4096 ∧ (getLnk t l).replay = k.replay ++ [f] ∧ (getLnk t l).txSeq = (k.txSeq + 1) % 4096 ∧
       (getLnk t l).cred1 = (if f.vc then k.cred1 - 1 else k.cred1) ∧ (getLnk t l).cred0 = (if f.vc then k.cred0 else k.cred0 - 1)
     let tag := ∃ t f, run = .next t ∧ sent t f ∧ f.typ = 2 ∧ f.vc = false ∧ f.info = BitVec.ofNat 48 k.grpTx ∧
       f.payload = padFlit (leBytes 8 k.keys.ctr.toNat ++ leBytes 16 (Config.gcm (txKey k).key ((txKey k).salt ++ k.keys.ctr) k.grpAad k.grpPlain).2.toNat) ∧
       (getLnk t l).grpTx = 0 ∧ (getLnk t l).grpPlain = [] ∧ (getLnk t l).grpAad = [] ∧ (getLnk t l).keys.ctr = k.keys.ctr + 1 ∧ kept t f
     let plain := fun (i : LinkItem) => ∃ t f, run = .next t ∧ sent t f ∧ f.typ = 1 ∧ f.info = i.info ∧ f.payload = i.payload ∧ (getLnk t l).txq = k.txq.erase i ∧ (getLnk t l).grpTx = k.grpTx ∧
       (getLnk t l).keys = k.keys ∧ kept t f
     let item := fun (i : LinkItem) => ∃ t f, run = .next t ∧ sent t f ∧ f.typ = BitVec.ofNat 4 i.typ ∧ f.vc = i.vc ∧ f.info = i.info ∧
       (let x := turnKey k
        let g := Config.gcm (txKey x).key ((txKey x).salt ++ x.keys.ctr) (k.grpAad ++ flitAad f) (k.grpPlain ++ i.payload)
        f.payload = (g.1.drop k.grpPlain.length).take 240 ∧ f.keysel = bit (lnkReg x 0x8) 13 ∧ (getLnk t l).grpAad = k.grpAad ++ flitAad f) ∧
       (getLnk t b).txq = q.erase i ∧ (getLnk t l).grpTx = k.grpTx + 1 ∧ (getLnk t l).grpPlain = k.grpPlain ++ i.payload ∧ kept t f
     let none1 := fun (o : Option LinkItem) => o = none ∨ k.cred1 = 0
     let none0 := fun (o : Option LinkItem) => o = none ∨ k.cred0 = 0
     (lst k < 4 ∨ 6 < lst k → run = .next s) ∧
     (4 ≤ lst k → lst k ≤ 6 → inPass s (lpid k) = true → idle true) ∧
     (lst k = 4 ∨ lst k = 5 → inPass s (lpid k) = false → k.resend = none → k.replay.length < 256 → k.grpTx = 0 → k.grpSync = false → keySpent k = false →
       (∀ i, ctrl = some i → 0 < k.cred0 → plain i) ∧ (none0 ctrl → idle false)) ∧
     (lst k = 6 → inPass s (lpid k) = false → k.held = [] → (∀ a g, (group (getLnk s a) g).toNext = [] ∧ (group (getLnk s a) g).toPrev = []) → keySpent k = false →
       (∀ i f, k.resend = some i → k.replay[i]? = some f → ∃ t, run = .next t ∧ Msg.flit l f ∈ t.outbox ∧ lnkReg (getLnk t l) 0x28 = lnkReg k 0x28 + 1 ∧ (getLnk t l).replay = k.replay ∧
         (tget k.resends f.seq.toNat 0 < 15 → t.outbox = s.outbox ++ [.flit l f] ∧ lst (getLnk t l) = 6 ∧ (getLnk t l).resend = (if i + 1 < k.replay.length then some (i + 1) else none)) ∧
         (15 ≤ tget k.resends f.seq.toNat 0 → lst (getLnk t l) ≠ 6)) ∧
       (k.resend = none → 256 ≤ k.replay.length → idle false) ∧
       (k.resend = none → k.replay.length < 256 →
         (15 ≤ k.grpTx ∨ k.grpSync = true → (0 < k.cred0 → tag) ∧ (k.cred0 = 0 → idle false)) ∧
         (k.grpTx < 15 → k.grpSync = false →
           (∀ i, sync = some i → 0 < k.cred1 → item i) ∧
           (none1 sync → ∀ i, ctrl = some i → (0 < k.grpTx → 0 < k.cred0 → tag) ∧ (k.grpTx = 0 → 0 < k.cred0 → plain i)) ∧
           (none1 sync → ctrl = none ∨ k.cred0 = 0 → (∀ i, rsp = some i → i.typ ≠ 1 → i.typ % 16 ≠ 0 → 0 < k.cred1 → item i) ∧
             (∀ i, none1 rsp → req = some i → i.typ % 16 ≠ 0 → 0 < k.cred0 → item i) ∧
             (none1 rsp → none0 req → (0 < k.grpTx → 0 < k.cred0 → tag) ∧ (k.grpTx = 0 ∨ k.cred0 = 0 → idle false)))))) ∧
     (lst k = 6 → inPass s (lpid k) = false → k.held = [] → (∀ a g, (group (getLnk s a) g).toNext = [] ∧ (group (getLnk s a) g).toPrev = []) → keySpent k = true →
       k.resend = none → k.replay.length < 256 → k.keys.rekey = false → k.fault = none → ctrl = none → k.grpSync = false → 0 < k.cred0 → ¬(lnkFixed s k = true ∧ s.hub.rot.sessions = 0xFFFFFFFF#32) →
       ∃ t f, run = .next t ∧ sent t f ∧ f.typ = 1 ∧ (getLnk t l).keys.rekey = true ∧ (getLnk t l).grpTx = 0))

/-- R28, R29, R30, R58, R62, R90, R372: a station entry is enabled if no check stands against it: each of its cores, in the order of rank, then serves it. Else its reason is recorded. Cleared, the firings of its cores end, their
stored tokens go, and TRAPPED and LOST are 0. RESUME lets a core go on behind a SW or BKPT trap, and is ignored after another cause. -/
def Obligations.StationEntries : Prop :=
  ∀ (s : State) (fn : Fn) (p : PartIx) (e : Fin 128) (v : Word) (pid : Nat),
    let q := getPart s p.val
    let old := entWord q e.val 0
    let new := mwApply 7 old v
    PartAdmits s fn p pid → ¬(pid = 0xF ∧ partState s p.val = SEALED) →
    (bit old 0 = false → bit new 0 = true →
      let s1 := entReg s p.val e.val 0 (fun w => setFld w 2 1 (fld new 2 1))
      let x := fld new 2 1
      let c := stnCheck s1 p.val e.val
      (bit q.grants.ctxs x = false → c = 0x04) ∧
      ∃ t, exec (.stnCtlEnable fn p e v) s = .next t ∧ t.clusters = s.clusters ∧ t.mcs = s.mcs ∧ t.lnks = s.lnks ∧ t.hub = s.hub ∧ (∀ d, d ≠ p.val → getPart t d = getPart s d) ∧
        (c ≠ 0 → bit (entWord (getPart t p.val) e.val 0) 0 = false ∧ fld (entWord (getPart t p.val) e.val 4) 15 8 = c % 256 ∧ t.cores = s.cores) ∧
        (c = 0 → bit (entWord (getPart t p.val) e.val 0) 0 = true ∧ entCtx (getPart t p.val) e.val = x ∧ bit (entWord (getPart t p.val) e.val 4) 0 = true ∧
          (∀ i m, (entCores q e.val)[i]? = some m →
            (ctxOf (getCore t m) x).stn = some { part := p.val, entry := e.val } ∧ (ctxOf (getCore t m) x).rank = i ∧ (ctxOf (getCore t m) x).ncores = (entCores q e.val).length ∧
            (ctxOf (getCore t m) x).window = fld (entWord q e.val 0x8) 15 0 ∧ ((ctxOf (getCore t m) x).needSetup = true ∨ (ctxOf (getCore t m) x).setup.isSome = true) ∧
            (ctxOf (getCore t m) x).descs = [] ∧ (ctxOf (getCore t m) x).step = partReg q 0x108 ∧
            (ctxOf (getCore t m) x).seed = BitVec.ofNat 64 ((partReg q 0x104).toNat * 2 ^ 32 + (partReg q 0x100).toNat) ∧
            ((∀ y ∈ (getCore s m).ctxs, y.1 ≠ x → y.2.stn = none) → (getCore t m).banks = []) ∧
            ((∃ y ∈ (getCore s m).ctxs, y.1 ≠ x ∧ y.2.stn.isSome = true) → (getCore t m).banks = (getCore s m).banks) ∧
            (getCore t m).sram = (getCore s m).sram ∧ (getCore t m).prog = (getCore s m).prog) ∧
          (∀ m, m ∉ entCores q e.val → getCore t m = getCore s m))) ∧
    (bit old 0 = true → bit new 0 = false → ∃ t, exec (.stnCtlDisable fn p e v) s = .next t ∧ bit (entWord (getPart t p.val) e.val 0) 0 = false ∧
      bit (entWord (getPart t p.val) e.val 4) 0 = false ∧ t.clusters = s.clusters ∧ t.mcs = s.mcs ∧ (∀ d, d ≠ p.val → getPart t d = getPart s d) ∧
      (∀ m ∈ entCores q e.val, ∀ x ∈ servedCtxs (getCore s m) p.val e.val, (ctxOf (getCore t m) x).stn = none ∧ (ctxOf (getCore t m) x).setup = none ∧
        tfind (getCore t m).traps x = none ∧ bit (coreReg (getCore t m) 0x004) 0 = false ∧ fld (coreReg (getCore t m) 0x004) 23 16 = 0 ∧
        (∀ f ∈ (getCore t m).firings, f.2.ctx ≠ x) ∧ (∀ st ∈ (getCore t m).stores, ∀ n ∈ st.2, n.ctx ≠ x) ∧ (getCore t m).sram = (getCore s m).sram) ∧
      (∀ m, (m ∉ entCores q e.val ∨ servedCtxs (getCore s m) p.val e.val = []) → getCore t m = getCore s m)) ∧
    (∀ (c : CoreIx) (h : TrapHold) (r : Run), Admits s fn (.core c.val) (coreRefusal s c.val) pid → bit (mwApply 1 0 v) 0 = true →
      (∀ o, coreOwner s c.val = some o → partState s o = SEALED → bit (partReg (getPart s o) 0x10) 3 = true) →
      let k := getCore s c.val
      let x := fld (coreReg k 0x008) 9 8
      tfind k.traps x = some h → bit (coreReg k 0x004) 0 = true →
      (h.cause ≠ SW → h.cause ≠ BKPT → exec (.coreCtlResume fn c v) s = .next (ddTrip s (fnNode fn) (.core c.val) 2 1)) ∧
      ((h.cause = SW ∨ h.cause = BKPT) → heldRun k x h.run = some r → HasNext r → ∃ t, exec (.coreCtlResume fn c v) s = .next t ∧ OnlyCore (noDd s) (noDd t) c.val ∧
        tfind (getCore t c.val).traps x = none ∧ bit (coreReg (getCore t c.val) 0x004) 0 = false ∧ heldRun (getCore t c.val) x h.run = some (pastWord r r.pc.toNat).1 ∧
        (getCore t c.val).sram = k.sram ∧ ∀ o, o ≠ 0x004 → coreReg (getCore t c.val) o = coreReg k o))

/-- R116, R127, R209, R366: the enables of a cluster. A context's routes and steering entries are enabled if no check stands against them; cleared, its tokens in the switch are discarded and counted, and steering units that
stopped in it are released. A ring is enabled for its writer if no check stands against it; clearing ENABLE releases a ring that has stopped. While an entry is in progress
the write waits for its end with ENABLE still 1: that is the model's choice (log 115). -/
def Obligations.ClusterEnables : Prop :=
  ∀ (s : State) (fn : Fn) (cl : ClIx) (x : Fin 4) (ch : Fin 4) (v : Word) (pid : Nat),
    let k := getCl s cl.val
    let alone := bit v (16 + x.val) = true ∧ ∀ y, y < 4 → y ≠ x.val → bit v (16 + y) = false
    (Admits s fn (.cluster cl.val) (sharedRefusal s) pid → alone →
      (bit v x.val = true → swEnabled k x.val = false → ∃ t, exec (.clSwCtlEnable fn cl v) s = .next t ∧ ClRegs s t cl.val [0x100, 0x104] ∧
        fld (clReg (getCl t cl.val) 0x104) 15 8 = swCheck k cl.val x.val % 256 ∧
        (∀ y, y < 4 → swEnabled (getCl t cl.val) y = (if y = x.val then decide (swCheck k cl.val x.val = 0) else swEnabled k y)) ∧
        ((∃ net sl, net < 3 ∧ sl < netSlots net ∧ rtValid (route k x.val net sl) = true ∧ bit (route k x.val net sl) 31 = true) → swCheck k cl.val x.val = 0x06)) ∧
      (bit v x.val = true → swEnabled k x.val = true → exec (.clSwCtlEnable fn cl v) s = .next (ddTrip (setCl s cl.val k) (fnNode fn) (.cluster cl.val) 2 1)) ∧
      (bit v x.val = false → swEnabled k x.val = true → ∃ t, exec (.clSwCtlDisable fn cl v) s = .next t ∧
        (∀ y, y < 4 → swEnabled (getCl t cl.val) y = (decide (y ≠ x.val) && swEnabled k y)) ∧
        (∀ key, tget (getCl t cl.val).queues key [] = (tget k.queues key []).filter (fun tk => tk.ctx != x.val)) ∧
        (∀ u, bit (tget (getCl t cl.val).units u SUnit.reset).stopped x.val = false) ∧
        (∀ u i, tget (tget (getCl t cl.val).units u SUnit.reset).inq i [] = (tget (tget k.units u SUnit.reset).inq i []).filter (fun tk => tk.ctx != x.val)) ∧
        (let n := fun (l : List Token) => l.countP (fun tk => tk.ctx == x.val)
         let gone := (k.queues.map (fun e => n e.2)).sum +
           (k.units.map (fun e => (e.2.inq.map (fun i => n i.2)).sum + n e.2.ctl + n (e.2.data.map (·.2)) + n (e.2.out.map (·.2)))).sum
         clReg (getCl t cl.val) 0x108 = clReg k 0x108 + w32 gone ∧ bit (clReg (getCl t cl.val) 0x104) 4 = (bit (clReg k 0x104) 4 || decide (gone ≠ 0))) ∧
        (getCl t cl.val).staging = k.staging ∧ (getCl t cl.val).chans = k.chans ∧ (∀ d, d ≠ cl.val → getCl t d = getCl s d) ∧ { noDd t with clusters := [] } = { noDd s with clusters := [] })) ∧
    (let off := 0x1820 + 0x10 * ch.val
     let st := 0x182C + 0x10 * ch.val
     let old := clReg k off
     let new := mwApply 0x1F old v
     let c := ringCheck s cl.val ch.val pid (k.setReg off new)
     Admits s fn (.cluster cl.val) (ringRefusal s cl.val ch.val (mwStaysOn old v)) pid → pid < 8 →
     (bit old 0 = false → bit new 0 = true →
       ((fld new 4 1 = 0 ∨ 12 < fld new 4 1) → c = 0x06) ∧ (1 ≤ fld new 4 1 → fld new 4 1 ≤ 12 → fld (clReg k (off + 4)) 22 0 % 64 ≠ 0 → c = 0x07) ∧
       ∃ t, exec (.rlRctlEnable fn cl ch v) s = .next t ∧ ClRegs s t cl.val [off, st] ∧ bit (clReg (getCl t cl.val) off) 0 = decide (c = 0) ∧
         fld (clReg (getCl t cl.val) st) 23 16 = c % 256 ∧ fld (clReg (getCl t cl.val) st) 11 0 = fld (clReg k st) 11 0 ∧
         (c = 0 → ringPid (getCl t cl.val) ch.val = pid) ∧ (c ≠ 0 → ringPid (getCl t cl.val) ch.val = ringPid k ch.val)) ∧
     (bit old 0 = true → bit new 0 = false → ringBusy k ch.val = true → ∃ t, exec (.rlRctlDisable fn cl ch v) s = .next t ∧ ringOn (getCl t cl.val) ch.val = true ∧
       bit (getCl t cl.val).ringStop ch.val = true ∧ tfind (getCl t cl.val).ringNext ch.val = some new ∧ (getCl t cl.val).chans = k.chans ∧ (∀ o, clReg (getCl t cl.val) o = clReg k o) ∧
       (getCl t cl.val).staging = k.staging ∧ (∀ d, d ≠ cl.val → getCl t d = getCl s d) ∧ { noDd t with clusters := [] } = { noDd s with clusters := [] }) ∧
     (bit old 0 = true → bit new 0 = false → ringBusy k ch.val = false → ∃ t, exec (.rlRctlDisable fn cl ch v) s = .next t ∧ ringOn (getCl t cl.val) ch.val = false ∧ bit (getCl t cl.val).ringBad ch.val = false ∧ clReg (getCl t cl.val) off = setBit new 0 false ∧
       (getCl t cl.val).chans = k.chans ∧ (∀ o, o ≠ off → clReg (getCl t cl.val) o = clReg k o) ∧ (getCl t cl.val).staging = k.staging ∧
       (∀ d, d ≠ cl.val → getCl t d = getCl s d) ∧ { noDd t with clusters := [] } = { noDd s with clusters := [] }))

/-- R164, R166, R305, R306, R300, R370, R366: registers of a partition's block. HALT reaches every core that the partition has been granted; VALID written as 1 re-arms the NaN record; the host write ring starts if its size is allowed, and keeps ENABLE while an owner holds it; an interrupt cause that
is enabled while its STAT bit is 1 sends its message, or is held pending; a doorbell writes a ring's TAIL or PART_HWR_HEAD, and its page reads 0.
That HALT reaches the cores in the same step (log 36; R164 allows 2 us), and which offsets name BAR2 (log 126), are the model's choices. -/
def Obligations.PartitionRegisters : Prop :=
  ∀ (s : State) (fn : Fn) (p : PartIx) (v : Word) (pid : Nat), PartAdmits s fn p pid →
    let q := getPart s p.val
    (∃ t, exec (.partNanCtlHalt fn p v) s = .next t ∧ PartRegs { s with cores := [] } { t with cores := [] } p.val [0x140] ∧
      partReg (getPart t p.val) 0x140 = mwApply 1 (partReg q 0x140) v ∧
      (∀ c ∈ ownedCores s p.val, getCore t c = { getCore s c with halt := bit (mwApply 1 (partReg q 0x140) v) 0 }) ∧ (∀ c, c ∉ ownedCores s p.val → getCore t c = getCore s c)) ∧
    (∃ t, exec (.partNanRec0Valid fn p v) s = .next t ∧ PartRegs s t p.val [0x144] ∧ bit (partReg (getPart t p.val) 0x144) 31 = (bit (partReg q 0x144) 31 && !(bit v 31)) ∧
      fld (partReg (getPart t p.val) 0x144) 30 0 = fld (partReg q 0x144) 30 0) ∧
    (let new := mwApply 0x1F (partReg q 0x88) v
     bit (partReg q 0x88) 0 = false → bit new 0 = true →
     (fld new 4 1 < 6 → ∃ t, exec (.partHwrCtlEnable fn p v) s = .next t ∧ PartRegs s t p.val [0x88, 0x90] ∧ bit (partReg (getPart t p.val) 0x88) 0 = false ∧
       fld (partReg (getPart t p.val) 0x90) 31 24 = 0x06) ∧
     (6 ≤ fld new 4 1 → ∃ t, exec (.partHwrCtlEnable fn p v) s = .next t ∧ hwrOn (getPart t p.val) = true ∧ hwrLog (getPart t p.val) = fld new 4 1 ∧
       fld (partReg (getPart t p.val) 0x90) 31 24 = 0 ∧ (getPart t p.val).hwrBase = fld (partReg q 0x80) 31 12 * 2 ^ 12 + (partReg q 0x84).toNat * 2 ^ 32 ∧
       { t with parts := [] } = { s with parts := [] } ∧ (∀ d, d ≠ p.val → getPart t d = getPart s d))) ∧
    (let new := mwApply 0x1F (partReg q 0x88) v
     bit (partReg q 0x88) 0 = true → bit new 0 = false → ∃ t, exec (.partHwrCtlEnable fn p v) s = .next t ∧ PartRegs s t p.val [0x88] ∧
       partReg (getPart t p.val) 0x88 = (if hwrOwner q = 0 then new else setBit new 0 true)) ∧
    (∀ b, b < 12 → mwApply 0xFFF (partReg q 0x44) v = setBit (partReg q 0x44) b true → bit (partReg q 0x44) b = false → bit (partReg q 0x40) b = true → irqVec (partReg q) 0x48 b < 248 →
      ∃ t, exec (.partIrqEn fn p v) s = .next t ∧ partReg (getPart t p.val) 0x44 = setBit (partReg q 0x44) b true ∧ t.cores = s.cores ∧ t.clusters = s.clusters ∧ t.hub = s.hub ∧
        (msixClear q.fn (irqVec (partReg q) 0x48 b) = true → partMute q = false → t.outbox = s.outbox ++ [msixMsg (.vf p) q.fn (irqVec (partReg q) 0x48 b)]) ∧
        ((msixClear q.fn (irqVec (partReg q) 0x48 b) = false ∨ partMute q = true) → t.outbox = s.outbox ∧ irqVec (partReg q) 0x48 b ∈ (getPart t p.val).fn.pend)) ∧
    ((∀ b, b < 12 → bit (mwApply 0xFFF (partReg q 0x44) v) b = true → bit (partReg q 0x44) b = true ∨ bit (partReg q 0x40) b = false) →
      ∃ t, exec (.partIrqEn fn p v) s = .next t ∧ PartRegs s t p.val [0x44] ∧ partReg (getPart t p.val) 0x44 = mwApply 0xFFF (partReg q 0x44) v) ∧
    (HubAdmits s fn → ∀ b, b < 8 → mwApply 0xFF (hubReg s.hub 0x14) v = setBit (hubReg s.hub 0x14) b true → bit (hubReg s.hub 0x14) b = false → bit (hubReg s.hub 0x10) b = true →
      irqVec (hubReg s.hub) 0x18 b < 64 → ∃ t, exec (.hubIrqEn fn v) s = .next t ∧ hubReg t.hub 0x14 = setBit (hubReg s.hub 0x14) b true ∧ t.parts = s.parts ∧
        (msixClear s.hub.pf (irqVec (hubReg s.hub) 0x18 b) = true → t.outbox = s.outbox ++ [msixMsg .pf s.hub.pf (irqVec (hubReg s.hub) 0x18 b)]) ∧
        (msixClear s.hub.pf (irqVec (hubReg s.hub) 0x18 b) = false → t.outbox = s.outbox ∧ irqVec (hubReg s.hub) 0x18 b ∈ t.hub.pf.pend)) ∧
    (fn = .vf p → (∀ (cl : ClIx) (ch : Fin 4), ringRefusal s cl.val ch.val false p.val = none → pmActive s = true →
        ∃ t, exec (.doorbell p (BitVec.ofNat 12 (16 * cl.val + 4 * ch.val)) v true) s = .next t ∧ ClRegs s t cl.val [0x1828 + 0x10 * ch.val] ∧
          clReg (getCl t cl.val) (0x1828 + 0x10 * ch.val) = v &&& 0xFFF#32) ∧
      (∃ t, exec (.doorbell p 0xC00#12 v true) s = .next t ∧ PartRegs s t p.val [0x8C] ∧ partReg (getPart t p.val) 0x8C = v &&& 0xFFFF#32) ∧
      (∀ off be ecc, BAR2 ≤ BitVec.toNat off / 4 * 4 → exec (.readClear fn off be ecc) s = .next { s with outbox := s.outbox ++ [.readData fn 0#32] }) ∧
      (∀ off, ∃ t, exec (.doorbell p off v false) s = .next t ∧ PartRegs s t p.val [0x28] ∧
        partReg (getPart t p.val) 0x28 = w32 (min 0xFFFFFFFF ((partReg q 0x28).toNat + 1))))

/-- R140, R142, R298, R326: what stops a write of a partition's block. A virtual function that does not exist writes nothing; one whose stream is not Secure under REQUIRE_IDE, and one of another partition, only counts in its own partition. -/
def Obligations.FirewallRefusals : Prop :=
  ∀ (s : State) (f : PartIx) (p : PartIx) (v : Word),
    let counts := fun (t : State) => PartRegs s t f.val [0x28] ∧ partReg (getPart t f.val) 0x28 = w32 (min 0xFFFFFFFF ((partReg (getPart s f.val) 0x28).toNat + 1))
    let writes : List Instr := [.partNanCtlHalt (.vf f) p v, .partNanRec0Valid (.vf f) p v, .partHtkCtlLoad (.vf f) p v, .partHtkCtlSweep (.vf f) p v, .partHwrCtlEnable (.vf f) p v,
      .partIrqEn (.vf f) p v, .trcCtlEnable (.vf f) p v, .partSrecCtlEnable (.vf f) p v, .partSecureCtlEnable (.vf f) p v, .partProofCtlStart (.vf f) p v, .partStepCtlOpen (.vf f) p v,
      .partStepCtlAbort (.vf f) p v, .partLscale (.vf f) p v, .partPrintCtlEnable (.vf f) p v, .stnCtlEnable (.vf f) p 0 v, .stnCtlDisable (.vf f) p 0 v]
    ∀ i ∈ writes,
      (fnLive s (.vf f) = false → exec i s = .next s) ∧
      (fnLive s (.vf f) = true → ideHeld (getPart s f.val) = true → ∃ t, exec i s = .next t ∧ counts t) ∧
      (fnLive s (.vf f) = true → ideHeld (getPart s f.val) = false → (f ≠ p ∨ partState s p.val = SCRUB ∨ partState s p.val = ABSENT) → ∃ t, exec i s = .next t ∧ counts t)

/-- R217, R218, R219, R323, R366: a key is loaded into an EMPTY slot with an epoch that the other slot has not, and is logged; SWEEP retires the LIVE slot, and page by page its pages are read from the host and take the new key; with
the last one the old key is destroyed, and the sweep interrupt is raised. -/
def Obligations.HostKeys : Prop :=
  ∀ (s : State) (fn : Fn) (p : PartIx) (v : Word) (pid : Nat),
    let q := getPart s p.val
    let new := mwApply 0xFF7 (partReg q 0x160) v
    let n := fld new 2 2
    let ep := fld new 11 4
    let fixed := bit (partReg q 0x10) 7
    (PartAdmits s fn p pid → bit new 0 = true → bit new 1 = false →
      let gives := fun (c : Nat) => ∃ t, exec (.partHtkCtlLoad fn p v) s = .next t ∧ PartRegs s t p.val [0x160, 0x164] ∧ fld (partReg (getPart t p.val) 0x164) 31 24 = c ∧
        fld (partReg (getPart t p.val) 0x164) 23 0 = fld (partReg q 0x164) 23 0
      let same := slotState s p.val (1 - n) ≠ 0 ∧ slotEpoch s p.val (1 - n) = ep
      let noMode := fixed = true ∧ (s.hub.rot.loads = 0xFFFFFFFF#32 ∨ (partState s p.val = SEALED ∧ bit q.policy 1 = true))
      (same → gives 0x01) ∧ (¬ same → noMode → gives 0x05) ∧ (¬ same → ¬ noMode → slotState s p.val n ≠ 0 → gives 0x0D) ∧
      (¬ same → ¬ noMode → slotState s p.val n = 0 → ∃ t, exec (.partHtkCtlLoad fn p v) s = .next t ∧ slotState t p.val n = 1 ∧ slotEpoch t p.val n = ep ∧
        slotState t p.val (1 - n) = slotState s p.val (1 - n) ∧ (slotKey t p.val n).ctr = 0 ∧ (getPart t p.val).logCount = q.logCount + 1 ∧
        (fixed = true → (slotKey t p.val n).key = .fixed q.label (BitVec.ofNat 8 ep) ∧ t.hub.rot.loads = s.hub.rot.loads + 1 ∧ (slotKey t p.val n).load = s.hub.rot.loads + 1) ∧
        (fixed = false → (slotKey t p.val n).key = .session s.hub.nextKey ∧ t.hub.nextKey = s.hub.nextKey + 1) ∧ t.mcs = s.mcs ∧ t.hub.host = s.hub.host)) ∧
    (PartAdmits s fn p pid → bit new 0 = false → bit new 1 = true →
      ((bit (partReg q 0x164) 20 = true ∨ (slotState s p.val n ≠ 1 ∧ slotState s p.val (1 - n) = 1)) → ∃ t, exec (.partHtkCtlSweep fn p v) s = .next t ∧ PartRegs s t p.val [0x160, 0x164] ∧
        fld (partReg (getPart t p.val) 0x164) 31 24 = 0x0D ∧ fld (partReg (getPart t p.val) 0x164) 23 0 = fld (partReg q 0x164) 23 0) ∧
      (bit (partReg q 0x164) 20 = false → slotState s p.val n = 1 → slotState s p.val (1 - n) ≠ 2 → 0 < htkCount s p.val n → ∃ t, exec (.partHtkCtlSweep fn p v) s = .next t ∧ PartRegs s t p.val [0x160, 0x164] ∧
        slotState t p.val n = 2 ∧ slotState t p.val (1 - n) = slotState s p.val (1 - n) ∧ bit (partReg (getPart t p.val) 0x164) 20 = true)) ∧
    (∀ o m page e, bit (partReg q 0x164) 20 = true → hostOpen s p.val = true → o < 2 → m < 2 → slotState s p.val o = 2 → slotState s p.val m = 1 →
      q.pt3.find? (fun x => ptValid x.2 && ptEpoch x.2 == slotEpoch s p.val o) = some (page, e) →
      let asks := runPieces s p.val [(page * 4096, 4096)]
      (tfind q.reads (2 + page) = none → asks ≠ [] → ∃ t, exec (.sweepPage p) s = .next t ∧ t.hub.reqs.length = s.hub.reqs.length + asks.length ∧
        (getPart t p.val).pt3 = q.pt3 ∧ (getPart t p.val).regs = q.regs ∧ t.hub.host = s.hub.host) ∧
      ((∃ x xs, tfind q.reads (2 + page) = some (x :: xs)) → ∃ t, exec (.sweepPage p) s = .next t ∧ (getPart t p.val).pt3 = q.pt3 ∧ (getPart t p.val).regs = q.regs ∧ t.hub = s.hub) ∧
      (tfind q.reads (2 + page) = some [] → ∃ t, exec (.sweepPage p) s = .next t ∧
        ptEpoch (tget (getPart t p.val).pt3 page 0) = slotEpoch s p.val m ∧ ptValid (tget (getPart t p.val).pt3 page 0) = true ∧ ptHaddr (tget (getPart t p.val).pt3 page 0) = ptHaddr e ∧
        (∀ g, g ≠ page → tget (getPart t p.val).pt3 g 0 = tget q.pt3 g 0) ∧ (slotKey t p.val m).ctr = (slotKey s p.val m).ctr + 4096 ∧
        (∀ h ∈ t.hub.host, ∃ g ∈ s.hub.host, g.part = h.part ∧ g.addr = h.addr ∧ g.data = h.data) ∧
        (∀ g ∈ s.hub.host, (∀ x ∈ s.hub.host, x.part = g.part → x.addr = g.addr → x = g) → ∃ h ∈ t.hub.host, g.part = h.part ∧ g.addr = h.addr ∧ g.data = h.data) ∧
        (htkCount t p.val o = 0 → bit (partReg (getPart t p.val) 0x40) 5 = true ∧ slotState t p.val o = 0 ∧ bit (partReg (getPart t p.val) 0x164) 20 = false)))

/-- R355, R358, R360, R362, R378: an indirect port. IND_ADDR takes a write at any time; an access of IND_DATA leaves as a packet and steps the address, is refused at once where no such cluster exists, and sets OVERRUN (a write) or is held (a read)
while BUSY; the answer clears BUSY, returns the bytes a read selected, and records a refusal; then the first read that was held leaves.
That held reads leave in the order in which they came is the model's choice (log 128).

R4, R5, R6, R7, R298, R331, R355: what the access codes make of a register of a partition's block: RW takes the value, W1C clears the bits that are written as 1, RO ignores a write, RC is cleared by a read. A read that is refused returns
all ones (the physical function reads state and quotas of a partition also in the pass), and so does every read of a partition in the pass or torn down, whose writes are counted, reserved offsets among them. A write of part of a dword is dropped and counted; one of a whole dword is no PARTIAL_BYTE_WRITE. A sealed partition's data word is read as ciphertext under Safelight alone. That the physical function reads in the pass (log 92), and what it reads of a
sealed partition in the clear (log 62), is the model's reading. -/
def Obligations.RegistersFromTheHost : Prop :=
  (∀ (s : State) (fn : Fn) (i : IndPort) (v : Word) (pid : Nat),
     let x := indState s i
     let a := indAddrOf s i
     let only := fun (t : State) => t.cores = s.cores ∧ t.mcs = s.mcs ∧ t.lnks = s.lnks ∧ ∀ j, j ≠ i → indState t j = indState s j
     let gone := fun (t : State) (g : Fn) (read : Bool) (be : BitVec 4) (held : List (Fn × BitVec 4)) (b : Body) => only t ∧
       indState t i = { x with addr := indNext a, flight := some { fn := g, read := read, be := be, tid := indTid i, ans := none }, held := held } ∧
       ∃ src, t.mesh = s.mesh ++ [{ pid := indPid i, src := src, dst := locNode (fld a 31 24) (indLoc a), tid := indTid i, body := b }]
     let leaves := fun (t : State) (read : Bool) (b : Body) => t.outbox = s.outbox ∧ gone t fn read 0xF x.held b
     let refusedAt := fun (t : State) => only t ∧ t.mesh = s.mesh ∧ (indState t i).addr = indNext a ∧ (indState t i).flight = none ∧ bit (indState t i).stat 2 = true ∧ fld (indState t i).stat 15 8 = 3
     (Admits s fn (indNode i) (indCheck s i) pid →
       (∃ t, exec (.indAddr fn i v) s = .next t ∧ only t ∧ indState t i = { x with addr := v &&& 0xFFFFFFFC#32 } ∧ t.mesh = s.mesh) ∧
       (indBusy s i = true → ∃ t, exec (.indDataWrite fn i v) s = .next t ∧ only t ∧ indState t i = { x with stat := setBit x.stat 1 true } ∧ t.mesh = s.mesh) ∧
       (indBusy s i = true → ∃ t, exec (.indDataRead fn i) s = .next t ∧ only t ∧ indState t i = { x with held := x.held ++ [(fn, 0xF)] } ∧ t.mesh = s.mesh ∧ t.outbox = s.outbox) ∧
       (indBusy s i = false → fld a 31 24 < 160 → pmActive s = true → (∃ t, exec (.indDataWrite fn i v) s = .next t ∧ leaves t false (.regWrite a v)) ∧
         (∃ t, exec (.indDataRead fn i) s = .next t ∧ leaves t true (.regRead a))) ∧
       (indBusy s i = false → 160 ≤ fld a 31 24 → (∃ t, exec (.indDataWrite fn i v) s = .next t ∧ refusedAt t ∧ t.outbox = s.outbox) ∧
         (∃ t, exec (.indDataRead fn i) s = .next t ∧ refusedAt t ∧ t.outbox = s.outbox ++ [.readData fn 0xFFFFFFFF#32]))) ∧
     (∀ f w, x.flight = some f → x.held = [] → f.ans = some (.val w) → ∃ t, exec (.indirectResponse i) s = .next t ∧ only t ∧ indState t i = { x with flight := none } ∧ t.mesh = s.mesh ∧
       t.outbox = s.outbox ++ (if f.read then [.readData f.fn (selectBytes w f.be)] else [])) ∧
     (∀ f c, x.flight = some f → x.held = [] → f.ans = some (.refused c) → ∃ t, exec (.indirectResponse i) s = .next t ∧ only t ∧ (indState t i).flight = none ∧ t.mesh = s.mesh ∧
       bit (indState t i).stat 2 = true ∧ fld (indState t i).stat 15 8 = c % 256 ∧ t.outbox = s.outbox ++ (if f.read then [.readData f.fn (selectBytes 0xFFFFFFFF#32 f.be)] else [])) ∧
     (∀ f w g be rest pg, x.flight = some f → f.ans = some (.val w) → x.held = (g, be) :: rest → Admits s g (indNode i) (indCheck s i) pg → fld a 31 24 < 160 → pmActive s = true →
       ∃ t, exec (.indirectResponse i) s = .next t ∧ t.outbox = s.outbox ++ (if f.read then [.readData f.fn (selectBytes w f.be)] else []) ∧ gone t g true be rest (.regRead a)) ∧
     ((∀ f, x.flight = some f → f.ans = none) → exec (.indirectResponse i) s = .next s)) ∧
  (∀ (s : State) (fn : Fn) (off : BitVec 26) (v : Word) (be : BitVec 4) (ecc : Ecc) (p : PartIx) (o pid : Nat),
     let q := getPart s p.val
     (fnLoc fn off.toNat = .part p.val o → PartAdmits s fn p pid →
       (o ∈ [0x48, 0x4C, 0x50, 0x84, 0x100, 0x104, 0x108] → ∃ t, exec (.registerWrite fn off v) s = .next t ∧ PartRegs s t p.val [o] ∧ partReg (getPart t p.val) o = v) ∧
       (o ∈ [0x40, 0x184, 0x1A0, 0x20C] → ∃ t, exec (.registerWrite fn off v) s = .next t ∧ PartRegs s t p.val [o] ∧
         partReg (getPart t p.val) o = partReg q o &&& ~~~(v &&& (if o = 0x40 then 0xFFF#32 else if o = 0x184 then 0x40000#32 else if o = 0x1A0 then 3#32 else 2#32))) ∧
       (o ∈ [0x10, 0x14, 0x18, 0x1C, 0x20, 0x24, 0x28, 0x90, 0x94, 0x114, 0x118, 0x164, 0x168, 0x16C, 0x1CC, 0x1E8, 0x210, 0x2004, 0x2040] → exec (.registerWrite fn off v) s = .next s) ∧
       (o ∈ [0x28, 0x94, 0x11C, 0x150, 0x1A4, 0x2040] → ∃ t, exec (.readClear fn off be ecc) s = .next t ∧ t.outbox = s.outbox ++ [.readData fn (selectBytes (partReg q o) be)] ∧
         partReg (getPart t p.val) o = 0 ∧ PartRegs s { t with outbox := s.outbox } p.val [o]) ∧
       (o ∈ [0x10, 0x14, 0x18, 0x40, 0x44, 0x100, 0x108, 0x114, 0x118, 0x144, 0x164, 0x184, 0x2000, 0x2004] → exec (.readClear fn off be ecc) s = .next { s with outbox := s.outbox ++ [.readData fn (selectBytes (partReg q o) be)] })) ∧
     (∀ f : PartIx, fn = .vf f → fnLive s fn = true → fnLoc fn off.toNat = .part p.val o → ideHeld (getPart s f.val) = true → ∃ t, exec (.readClear fn off be ecc) s = .next t ∧
       t.outbox = s.outbox ++ [.readData fn (selectBytes 0xFFFFFFFF#32 be)] ∧ PartRegs s { t with outbox := s.outbox } f.val [0x28] ∧
       partReg (getPart t f.val) 0x28 = w32 (min 0xFFFFFFFF ((partReg (getPart s f.val) 0x28).toNat + 1))) ∧
     (fn = .pf → ready s = true → fnLoc fn off.toNat = .part p.val o → o ∈ [0x10, 0x14, 0x18, 0x1C, 0x20, 0x24] →
       exec (.readClear fn off be ecc) s = .next { s with outbox := s.outbox ++ [.readData fn (selectBytes (partReg q o) be)] }) ∧
     (∀ f : PartIx, fn = .vf f → fnLive s fn = true → fnLoc fn off.toNat = .none_ → pidDown s f.val = true →
       let counts := fun (t : State) => PartRegs s t f.val [0x28] ∧ partReg (getPart t f.val) 0x28 = w32 (min 0xFFFFFFFF ((partReg (getPart s f.val) 0x28).toNat + 1))
       (∃ t, exec (.registerWrite fn off v) s = .next t ∧ counts t) ∧
       (∃ t, exec (.readClear fn off be ecc) s = .next t ∧ t.outbox = s.outbox ++ [.readData fn (selectBytes 0xFFFFFFFF#32 be)] ∧ counts { t with outbox := s.outbox })) ∧
     (be = 0xF#4 → exec (.partialByteWrite fn off v be) s = .refused (.illFormed "PARTIAL_BYTE_WRITE")) ∧
     (be ≠ 0xF#4 → fnLive s fn = true →
       (∀ f : PartIx, fn = .vf f → ∃ t, exec (.partialByteWrite fn off v be) s = .next t ∧ PartRegs s t f.val [0x28] ∧
         partReg (getPart t f.val) 0x28 = w32 (min 0xFFFFFFFF ((partReg (getPart s f.val) 0x28).toNat + 1))) ∧
       (fn = .pf → ∃ t, exec (.partialByteWrite fn off v be) s = .next t ∧ hubReg t.hub 0x34 = w32 (min 0xFFFF ((hubReg s.hub 0x34).toNat + 1)) ∧ bit (hubReg t.hub 0x10) 6 = true ∧ t.parts = s.parts)) ∧
     (ready s = true → partState s p.val = SEALED → ∀ n, n < 8 →
       let at_ : Nat := 0x210000 + p.val * 0x10000 + 0x120 + 4 * n
       (bit (partReg q 0x10) 3 = false → exec (.sealedRead (.bar0 (BitVec.ofNat 26 at_))) s = .next { s with outbox := s.outbox ++ [.readData .pf 0xFFFFFFFF#32] }) ∧
       (bit (partReg q 0x10) 3 = true →
         let g := Config.gcmWord q.sealKey (q.sealSalt ++ q.sealCtr) (BitVec.ofNat 64 (p.val + at_ * 256)) (partReg q (0x120 + 4 * n))
         ∃ t, exec (.sealedRead (.bar0 (BitVec.ofNat 26 at_))) s = .next t ∧ t.outbox = s.outbox ++ [.readData .pf (w32 (fld g 31 0))] ∧ (getPart t p.val).sealCtr = q.sealCtr + 1 ∧
           (getPart t p.val).regs = q.regs ∧ (hubReg t.hub 0x100200).toNat = fld q.sealCtr 31 0 ∧ (hubReg t.hub 0x100208).toNat = p.val ∧ (hubReg t.hub 0x10020C).toNat = fld g 63 32 ∧
           hubReg t.hub 0x10021C = hubReg s.hub 0x10021C + 1 ∧ t.cores = s.cores ∧ t.mcs = s.mcs)))

/-- R368, R378, R394, R395, R396, R397, R398, R399: a contact sheet. TAKE numbers the sheet and sends a marker to every island, or is counted as ignored; an island that the marker reaches copies its counters and the sheet's number and acknowledges, but for one that stands in standby;
with the last acknowledgement DONE is set and the SNAP cause is raised.

R306, R366, R401, R402, R403, R404: trace. It starts if no check stands against it, and takes the host write ring where that is its destination; a sample of a traced core is a record with its stall counters, lost where the buffer of its cluster is
full. With an empty queue the block idles; only a record that may leave does so (the model's choice of when: log 18), none while the clusters stand, and start-up comes to its last step (log 137). -/
def Obligations.SheetsAndTraces : Prop :=
  (∀ (s : State) (fn : Fn) (v : Word) (i : Island),
     let st := hubReg s.hub 0x300004
     let n := fld st 15 0
     (HubAdmits s fn → bit v 16 = true → bit v 0 = true →
       (bit st 16 = true → pmActive s = true → ∃ t, exec (.snapCtrlTake fn v) s = .next t ∧ fld (hubReg t.hub 0x300004) 15 0 = (n + 1) % 65536 ∧ bit (hubReg t.hub 0x300004) 16 = false ∧
         fld (hubReg t.hub 0x300004) 31 24 = fld st 31 24 ∧ (∀ j : Island, j ∈ t.hub.markers) ∧ t.hub.acks = [] ∧ t.cores = s.cores ∧ t.clusters = s.clusters ∧ t.mcs = s.mcs) ∧
       ((bit st 16 = false ∨ pmActive s = false) → ∃ t, exec (.snapCtrlTake fn v) s = .next t ∧ HubRegs s t [0x300004] ∧ fld (hubReg t.hub 0x300004) 31 24 = (fld st 31 24 + 1) % 256 ∧
         fld (hubReg t.hub 0x300004) 23 0 = fld st 23 0)) ∧
     (i ∉ s.hub.markers → exec (.marker i) s = .next s) ∧
     let stands := pmActive s = false ∧ i ≠ .hub ∧ ∀ d, i ≠ .dd d
     (stands → exec (.marker i) s = .next s) ∧
     (i ∈ s.hub.markers → ¬ stands → ∃ t, exec (.marker i) s = .next t ∧ t.hub.markers = s.hub.markers.erase i ∧ t.hub.acks = s.hub.acks ++ [i] ∧ t.mesh = s.mesh ∧
       (∀ cl, i = .cluster cl → fld (clReg (getCl t cl.val) 0xF00) 15 0 = n ∧ (∀ j, j < 24 → clReg (getCl t cl.val) (0x1A00 + 4 * j) = clReg (getCl s cl.val) (0x1900 + 4 * j)) ∧
         (∀ c : CoreIx, c.val / 32 = cl.val → (∀ o ∈ coreCounters, coreReg (getCore t c.val) (o + 0x40) = coreReg (getCore s c.val) o) ∧ { getCore t c.val with regs := [] } = { getCore s c.val with regs := [] }) ∧
         (∀ c : CoreIx, c.val / 32 ≠ cl.val → getCore t c.val = getCore s c.val)) ∧
       (∀ m, i = .mc m → fld (mcReg (getMc t m.val) 0xF00) 15 0 = n ∧ (∀ o ∈ [0x1064, 0x1068, 0x106C], mcReg (getMc t m.val) (o + 0x100) = mcReg (getMc s m.val) o) ∧ t.cores = s.cores ∧ t.clusters = s.clusters) ∧
       (∀ l, i = .lnk l → fld (lnkReg (getLnk t l.val) 0xF00) 15 0 = n ∧ (∀ o ∈ [0x20, 0x24, 0x28, 0x2C, 0x30], lnkReg (getLnk t l.val) (o + 0x100) = lnkReg (getLnk s l.val) o) ∧ t.cores = s.cores ∧ t.clusters = s.clusters) ∧
       (i = .hub → fld (hubReg t.hub 0x301F00) 15 0 = n ∧ hubReg t.hub 0x301000 = pcieTx s ∧
         (∀ o ∈ [0x301000, 0x301004, 0x301008] ++ (List.range 16).map (fun h => 0x301040 + 4 * h), hubReg t.hub (o + 0x400) = hubReg t.hub o) ∧ t.cores = s.cores ∧ t.clusters = s.clusters ∧ t.mcs = s.mcs ∧ t.lnks = s.lnks) ∧
       (∀ d, i = .dd d → t.cores = s.cores ∧ t.clusters = s.clusters ∧ t.mcs = s.mcs ∧ t.lnks = s.lnks ∧ ∀ j, j < 3 → fld (hubReg t.hub (ddOff d.val j + 0x7C)) 15 0 = n ∧
         ∀ o ∈ [0, 4, 8, 0xC, 0x10], hubReg t.hub (ddOff d.val j + o + 0x40) = hubReg t.hub (ddOff d.val j + o))) ∧
     (i ∉ s.hub.acks → exec (.snapAck i) s = .next s) ∧
     (i ∈ s.hub.acks → ∃ t, exec (.snapAck i) s = .next t ∧ t.hub.acks = s.hub.acks.erase i ∧ t.hub.markers = s.hub.markers ∧ t.cores = s.cores ∧ t.clusters = s.clusters ∧ t.parts = s.parts ∧
       (s.hub.markers = [] → s.hub.acks = [i] → bit (hubReg t.hub 0x300004) 16 = true ∧ bit (hubReg t.hub 0x10) 2 = true ∧ fld (hubReg t.hub 0x300004) 15 0 = n) ∧
       ((s.hub.markers ≠ [] ∨ s.hub.acks ≠ [i]) → t.hub.regs = s.hub.regs))) ∧
  (∀ (s : State) (fn : Fn) (p : PartIx) (c : CoreIx) (v : Word) (pid : Nat),
     let q := getPart s p.val
     let new := mwApply 0x7FF (partReg q 0x2000) v
     let code := trcCheck s p.val new
     (PartAdmits s fn p pid → bit (partReg q 0x2000) 0 = false → bit new 0 = true →
       (partState s p.val = SEALED → bit (partReg q 0x10) 3 = false → code = 0x0A) ∧ (partState s p.val ≠ SEALED → bit new 1 = false → hwrOwner q = 1 → code = 0x03) ∧
       ∃ t, exec (.trcCtlEnable fn p v) s = .next t ∧ { t with parts := [] } = { s with parts := [] } ∧ (∀ d, d ≠ p.val → getPart t d = getPart s d) ∧
         (code = 0 → bit (partReg (getPart t p.val) 0x2004) 0 = true ∧ fld (partReg (getPart t p.val) 0x2004) 15 8 = 0 ∧ bit (partReg (getPart t p.val) 0x2000) 0 = true ∧
           (bit new 1 = false → hwrOwner (getPart t p.val) = 2)) ∧
         (code ≠ 0 → bit (partReg (getPart t p.val) 0x2004) 0 = bit (partReg q 0x2004) 0 ∧ fld (partReg (getPart t p.val) 0x2004) 15 8 = code % 256 ∧ bit (partReg (getPart t p.val) 0x2000) 0 = false)) ∧
     (let cl := c.val / 32
      let k := getCl s cl
      (coreOwner s c.val = none → exec (.traceSample c) s = .next s) ∧
      (pmActive s = true → coreOwner s c.val = some p.val →
        (traceOn s p.val cl 7 = false → exec (.traceSample c) s = .next s) ∧
        (traceOn s p.val cl 7 = true → k.trace.length < 16 → k.dropped = 0 → ∃ t r, exec (.traceSample c) s = .next t ∧ (getCl t cl).trace = k.trace ++ [r] ∧ r.part = p.val ∧ r.evt = 7 ∧
          r.place = placeCore c.val ∧ r.args = (List.range 8).map (fun i => coreReg (getCore s c.val) (0x20 + 4 * i)) ∧ r.seq = fld (clReg k 0xF00) 15 0 ∧ t.cores = s.cores ∧ t.parts = s.parts) ∧
        (traceOn s p.val cl 7 = true → 16 ≤ k.trace.length → ∃ t, exec (.traceSample c) s = .next t ∧ (getCl t cl).trace = k.trace ∧ (getCl t cl).dropped = k.dropped + 1 ∧
          (partReg (getPart t p.val) 0x2040).toNat = min 0xFFFFFFFF ((partReg q 0x2040).toNat + 1) ∧ t.cores = s.cores))) ∧
     (s.pending = [] → (∃ t, step s = .next t ∧ t.cores = s.cores ∧ t.lnks = s.lnks ∧ t.mesh = s.mesh ∧ t.pending = []) ∧
       (s.hub.pwr.booting = false → (pmActive s = false ∨ ∀ e ∈ s.clusters, ∀ r ∈ e.2.trace, traceMay s r = false) → step s = .next s)))

/-- R316, R317, R318, R319, R320, R332, R366, R370: the operator's mailbox commands, at the front of the queue. A partition is created OPEN with no grant and no quota; a grant adds its resources and a revocation takes them away, each with an entry in the
attestation log; a quota is set, and OVER_QUOTA follows; a teardown starts the fixer pass. A refused command changes nothing but the reason that it returns, and ROT_DONE returns it; one that the issuing function may not use is
refused with NOT_OWNER. That a command with several faults returns the lowest reason, whatever the state of its partition, and that the wrong issuer
comes before all others, is the model's choice (log 44). -/
def Obligations.PartitionCommands : Prop :=
  ∀ (s : State) (b : Mailbox) (p : Nat),
    let k := getPart s p
    let a := grantArg s b
    let res := s.hub.rot.result
    let done := fun (t : State) => t.hub.rot.result = some 0 ∧ t.hub.rot.queue = s.hub.rot.queue ∧ ∀ d, d ≠ p → getPart t d = getPart s d
    let logged := fun (t : State) => (getPart t p).logCount = k.logCount + 1
    p = mbxArg s b 0 →
    (atFront s b 0x01 = true → b = .pf → p < 8 → partState s p = ABSENT → ∃ t, exec (.partCreate b) s = .next t ∧ done t ∧ partState t p = OPEN ∧ (getPart t p).grants = Grants.none_ ∧
      (getPart t p).logCount = 1 ∧ partReg (getPart t p) 0x14 = 0 ∧ partReg (getPart t p) 0x1C = 0 ∧ partReg (getPart t p) 0x24 = 1 ∧ bit (hubReg t.hub 0x10) 4 = true ∧ t.cores = s.cores ∧ t.mcs = s.mcs) ∧
    (atFront s b 0x01 = true → b = .pf → p < 8 → partState s p ≠ ABSENT → exec (.partCreate b) s = .next (setResult s 0x03)) ∧
    (atFront s b 0x01 = true → b = .pf → 8 ≤ p → exec (.partCreate b) s = .next (setResult s 0x06)) ∧
    (b ≠ .pf → (atFront s b 0x01 = true → exec (.partCreate b) s = .next (setResult s 0x0E)) ∧ (atFront s b 0x02 = true → exec (.partGrant b) s = .next (setResult s 0x0E)) ∧
      (atFront s b 0x03 = true → exec (.partRevoke b) s = .next (setResult s 0x0E)) ∧ (atFront s b 0x04 = true → exec (.partQuota b) s = .next (setResult s 0x0E)) ∧
      (atFront s b 0x05 = true → exec (.partTeardown b) s = .next (setResult s 0x0E))) ∧
    (b = .pf → (atFront s b 0x20 = true → exec (.pageMap b) s = .next (setResult s 0x0E)) ∧ (atFront s b 0x21 = true → exec (.pageUnmap b) s = .next (setResult s 0x0E)) ∧
      (atFront s b 0x22 = true → exec (.pageAttr b) s = .next (setResult s 0x0E)) ∧ (atFront s b 0x23 = true → exec (.keyMode b) s = .next (setResult s 0x0E)) ∧
      (atFront s b 0x24 = true → exec (.logRead b) s = .next (setResult s 0x0E))) ∧
    (atFront s b 0x02 = true → b = .pf → p < 8 → (partState s p = OPEN) → grantBad a = false → grantTaken s p a = false → ∃ t, exec (.partGrant b) s = .next t ∧ done t ∧ logged t ∧
      heldMask (getPart t p).grants a = heldMask k.grants a ||| a.mask ∧ (getPart t p).regs = k.regs ∧ (a.kind ≠ 0 → t.cores = s.cores) ∧
      (a.kind = 0 → ∀ i, i < 32 → bit a.mask i = true → getCore t (a.idx * 32 + i) = { getCore s (a.idx * 32 + i) with halt := bit (partReg k 0x140) 0 })) ∧
    (atFront s b 0x02 = true → b = .pf → grantBad a = true → exec (.partGrant b) s = .next (setResult s 0x06)) ∧
    (atFront s b 0x02 = true → b = .pf → p < 8 → grantBad a = false → grantTaken s p a = true → exec (.partGrant b) s = .next (setResult s 0x03)) ∧
    (atFront s b 0x03 = true → b = .pf → p < 8 → partState s p = OPEN → grantBad a = false → grantBusy s p a = false → ∃ t, exec (.partRevoke b) s = .next t ∧ done t ∧ logged t ∧
      heldMask (getPart t p).grants a = heldMask k.grants a &&& ~~~a.mask ∧ (getPart t p).regs = k.regs ∧ t.cores = s.cores) ∧
    (atFront s b 0x03 = true → b = .pf → p < 8 → partState s p = OPEN → grantBad a = false → grantBusy s p a = true → exec (.partRevoke b) s = .next (setResult s 0x0D)) ∧
    (let kind := mbxArg s b 1
     let v := mbxArg s b 2
     atFront s b 0x04 = true → b = .pf → p < 8 → (partState s p = OPEN ∨ partState s p = SEALED) → kind ≤ 2 → (kind = 1 → v ≤ 1048576) → (kind = 2 → 1 ≤ v ∧ v ≤ 255) →
     (kind = 0 → v ≤ (partReg k 0x14).toNat) → ∃ t, exec (.partQuota b) s = .next t ∧ done t ∧ (partReg (getPart t p) (quotaOff kind)).toNat = v ∧
       (v < (partReg k (quotaOff kind)).toNat → logged t) ∧ (¬ v < (partReg k (quotaOff kind)).toNat → (getPart t p).logCount = k.logCount) ∧
       (bit (partReg (getPart t p) 0x10) 2 = true ↔ ((partReg (getPart t p) 0x14).toNat < (partReg k 0x18).toNat ∨ (partReg (getPart t p) 0x1C).toNat < (partReg k 0x20).toNat)) ∧ t.mcs = s.mcs) ∧
    (atFront s b 0x05 = true → b = .pf → p < 8 → (partState s p = OPEN ∨ partState s p = SEALED) → ∃ t, exec (.partTeardown b) s = .next t ∧ t.hub.rot.result = some 0 ∧ partState t p = SCRUB ∧
      (getPart t p).pass = some true ∧ (getPart t p).slots = [] ∧ (getPart t p).sealKey = 0 ∧ bit (hubReg t.hub 0x10) 4 = true ∧
      (∀ c ∈ ownedCores s p, (getCore t c).sram = [] ∧ (getCore t c).prog = [] ∧ (getCore t c).firings = [] ∧ (getCore t c).regs = []) ∧
      (∀ cl i x, cl < 160 → i < 128 → bit (tget k.grants.staging cl (0 : BitVec 128)) i = true → i * 65536 ≤ x → x < (i + 1) * 65536 → mread (getCl t cl).staging x = Mem.blank) ∧
      (∀ m, m < 16 → stnOn (getMc s m) = true → stnPid (getMc s m) = p → stnOn (getMc t m) = false)) ∧
    (∀ c, s.hub.rot.queue.head? = some (.mbx b) → (∀ q pol ex, s.hub.rot.queue.tail.head? ≠ some (.seal q pol ex)) → res = some c → ¬(fld (mbxReg s b 0x0) 7 0 = 5 ∧ c = 0 ∧ (getPart s p).pass.isSome = true) → ∃ t, exec (.rotDone b) s = .next t ∧
      (¬(fld (mbxReg s b 0x0) 7 0 = 9 ∧ c = 0) → t.hub.rot.slotA = s.hub.rot.slotA ∧ t.hub.rot.slotB = s.hub.rot.slotB ∧ t.hub.rot.trial = s.hub.rot.trial) ∧
      (∀ img, fld (mbxReg s b 0x0) 7 0 = 9 → c = 0 → s.hub.rot.writing = some img → t.hub.rot.trial = true ∧ (bit (hubReg s.hub 0x100100) 0 = true → t.hub.rot.slotA = some img ∧ t.hub.rot.slotB = s.hub.rot.slotB) ∧
        (bit (hubReg s.hub 0x100100) 0 = false → t.hub.rot.slotB = some img ∧ t.hub.rot.slotA = s.hub.rot.slotA)) ∧ fld (mbxReg t b 0x4) 1 0 = 2 ∧ fld (mbxReg t b 0x4) 15 8 = c % 256 ∧ fld (mbxReg t b 0x4) 31 16 = (fld (mbxReg s b 0x4) 31 16 + 1) % 65536 ∧ t.hub.rot.queue = s.hub.rot.queue.tail ∧
      t.hub.rot.result = none ∧ (b = .pf → bit (hubReg t.hub 0x10) 1 = true) ∧ t.cores = s.cores ∧ t.mcs = s.mcs) ∧
    (s.hub.rot.queue.head? = some (.mbx b) → res = some 0 → fld (mbxReg s b 0x0) 7 0 = 5 → (getPart s p).pass.isSome = true → exec (.rotDone b) s = .next s) ∧
    (s.hub.rot.queue.head? ≠ some (.mbx b) → exec (.rotDone b) s = .next s)

/-- R196, R197, R198, R316, R320, R321, R327, R366: a tenant's mailbox commands, at the front of the queue. PAGE_MAP gives free frames of a package, or host pages with an epoch; PAGE_UNMAP takes the valid pages of its range away and zeroes their frames;
PAGE_ATTR sets RDONLY; both wait for the requests accepted before that use a page of theirs; LOG_READ returns an entry of the log. -/
def Obligations.TenantCommands : Prop :=
  ∀ (s : State) (p : PartIx),
    let b : Mailbox := .part p
    let k := getPart s p.val
    let sp := mbxArg s b 0
    let base := mbxArg s b 1
    let n := mbxArg s b 2
    let pkg := mbxArg s b 3
    let clean := ∀ e ∈ (if sp = 2 then k.pt2 else k.pt3), base ≤ e.1 → e.1 < base + n → ptValid e.2 = false
    let idle := ∀ m r, m < 16 → stnOn (getMc s m) = true → stnPid (getMc s m) ≠ p.val ∨ regOn (getMc s m) r = false
    (partState s p.val = OPEN ∨ partState s p.val = SEALED) →
    (atFront s b 0x20 = true → sp = 2 → base + n ≤ 262144 → pkg < 16 → clean → (partReg k 0x18).toNat + n ≤ (partReg k 0x14).toNat → n ≤ freeCount (getMc s pkg) → ∃ t, exec (.pageMap b) s = .next t ∧
      t.hub.rot.result = some 0 ∧ (∀ i, i < n → let e := tget (getPart t p.val).pt2 (base + i) 0
        ptValid e = true ∧ ptRdonly e = false ∧ ptPoison e = false ∧ ptPkg e = pkg ∧ ptFrame e < 16379 ∧ ptFrame e ∉ (getMc s pkg).used ∧ ptFrame e ∉ (getMc s pkg).reloc ∧ ptFrame e ∈ (getMc t pkg).used ∧
        ∀ j, j < n → ptFrame (tget (getPart t p.val).pt2 (base + j) 0) = ptFrame e → j = i) ∧
      (∀ g, (g < base ∨ base + n ≤ g) → tget (getPart t p.val).pt2 g 0 = tget k.pt2 g 0) ∧ (∀ m f, frameMem (getMc t m) f = frameMem (getMc s m) f) ∧
      (∀ c, ∀ z ∈ (getCl t c).xlate, ¬(z.1 = p.val ∧ z.2.1 = 2 ∧ base ≤ z.2.2 ∧ z.2.2 < base + n)) ∧ t.cores = s.cores) ∧
    (atFront s b 0x20 = true → sp = 2 → base + n ≤ 262144 → pkg < 16 → clean → (partReg k 0x14).toNat < (partReg k 0x18).toNat + n → exec (.pageMap b) s = .next (setResult s 0x02)) ∧
    (atFront s b 0x20 = true → sp = 3 → base + n ≤ 1048576 → clean → (partReg k 0x20).toNat + n ≤ (partReg k 0x1C).toNat → mbxArg s b 3 % 2 ^ 21 = 0 → mbxArg s b 5 % 2 ^ 17 = 0 →
      epochLive s p.val (mbxArg s b 7 % 256) = true → ∃ t, exec (.pageMap b) s = .next t ∧ t.hub.rot.result = some 0 ∧ (∀ i, i < n → let e := tget (getPart t p.val).pt3 (base + i) 0
        ptValid e = true ∧ ptRdonly e = bit (mbxReg s b (0x10 + 28)) 8 ∧ ptEpoch e = mbxArg s b 7 % 256 ∧ ptHaddr e = (mbxArg s b 3 + mbxArg s b 4 * 2 ^ 32 + i * 2 ^ 21) % 2 ^ 64 ∧
        ptTag e = (mbxArg s b 5 + mbxArg s b 6 * 2 ^ 32 + i * 2 ^ 17) % 2 ^ 64) ∧ (∀ g, (g < base ∨ base + n ≤ g) → tget (getPart t p.val).pt3 g 0 = tget k.pt3 g 0) ∧ (∀ m f, frameMem (getMc t m) f = frameMem (getMc s m) f) ∧
      (∀ c, ∀ z ∈ (getCl t c).xlate, ¬(z.1 = p.val ∧ z.2.1 = 3 ∧ base ≤ z.2.2 ∧ z.2.2 < base + n)) ∧ t.cores = s.cores) ∧
    (atFront s b 0x21 = true → (sp = 2 ∨ sp = 3) → base + n ≤ pageMax sp → idle → pagesBusy s b = false → s.hub.hccDirty = [] → ∃ t, exec (.pageUnmap b) s = .next t ∧ t.hub.rot.result = some 0 ∧
      (∀ e ∈ (if sp = 2 then (getPart t p.val).pt2 else (getPart t p.val).pt3), base ≤ e.1 → e.1 < base + n → ptValid e.2 = false) ∧
      mbxReg t b 0x40 = w32 (validPages s b).length ∧ (∀ e ∈ validPages s b, sp = 2 → (∀ x, mread (frameMem (getMc t (ptPkg e.2)) (ptFrame e.2)) x = Mem.blank)) ∧
      (∀ c, ∀ z ∈ (getCl t c).xlate, ¬(z.1 = p.val ∧ z.2.1 = sp ∧ base ≤ z.2.2 ∧ z.2.2 < base + n)) ∧ t.cores = s.cores) ∧
    (atFront s b 0x22 = true → (sp = 2 ∨ sp = 3) → base + n ≤ pageMax sp → idle → pagesBusy s b = false → s.hub.hccDirty = [] → ∃ t, exec (.pageAttr b) s = .next t ∧ t.hub.rot.result = some 0 ∧
      mbxReg t b 0x40 = w32 (validPages s b).length ∧ (∀ e ∈ validPages s b, ptRdonly (tget (if sp = 2 then (getPart t p.val).pt2 else (getPart t p.val).pt3) e.1 0) = decide (mbxArg s b 3 % 2 = 1) ∧
        ptValid (tget (if sp = 2 then (getPart t p.val).pt2 else (getPart t p.val).pt3) e.1 0) = true) ∧ t.mcs.length = s.mcs.length ∧ t.cores = s.cores) ∧
    ((atFront s b 0x21 = true ∨ atFront s b 0x22 = true) → (sp = 2 ∨ sp = 3) → base + n ≤ pageMax sp → idle → pagesBusy s b = true →
      (atFront s b 0x21 = true → exec (.pageUnmap b) s = .next s) ∧ (atFront s b 0x22 = true → exec (.pageAttr b) s = .next s)) ∧
    (∀ e, atFront s b 0x24 = true → k.logCount - k.log.length ≤ sp → sp < k.logCount → k.log[sp - (k.logCount - k.log.length)]? = some e → ∃ t, exec (.logRead b) s = .next t ∧ t.hub.rot.result = some 0 ∧
      (∀ i, i < 4 → (mbxReg t b (0x40 + 4 * i)).toNat = fld e (32 * i + 31) (32 * i)) ∧ (getPart t p.val).log = k.log ∧ t.cores = s.cores) ∧
    (atFront s b 0x24 = true → (sp < k.logCount - k.log.length ∨ k.logCount ≤ sp) → exec (.logRead b) s = .next (setResult s 0x06))

/-- R324, R323: KEY_MODE sets the key modes and the label of its partition; it is refused with BUSY while a host-tier slot is not EMPTY or a link port of
the partition is enabled, and with SEALED_LOCK while the partition is SEALED, even where BUSY applies too: R324 lists BUSY first, and that the lowest
reason is returned (R366) is the model's reading (log 44). -/
def Obligations.KeyModeCommand : Prop :=
  ∀ (s : State) (p : PartIx),
    let b : Mailbox := .part p
    let k := getPart s p.val
    let sp := mbxArg s b 0
    let base := mbxArg s b 1
    let n := mbxArg s b 2
    let pkg := mbxArg s b 3
    (atFront s b 0x23 = true → sp ≤ 3 → partState s p.val = OPEN → (∀ m, m < 2 → slotState s p.val m = 0) → (∀ l, l < 16 → lnkOn (getLnk s l) = false ∨ lpid (getLnk s l) ≠ p.val) → ∃ t, exec (.keyMode b) s = .next t ∧
      t.hub.rot.result = some 0 ∧ fld (partReg (getPart t p.val) 0x10) 7 6 = sp ∧ (getPart t p.val).label = BitVec.ofNat 128 (base + n * 2 ^ 32 + pkg * 2 ^ 64 + mbxArg s b 4 * 2 ^ 96) ∧ t.cores = s.cores ∧
      (∀ o, o ≠ 0x10 → partReg (getPart t p.val) o = partReg k o)) ∧
    (atFront s b 0x23 = true → sp ≤ 3 → partState s p.val = SEALED → exec (.keyMode b) s = .next (setResult s 0x0A)) ∧
    (atFront s b 0x23 = true → sp ≤ 3 → partState s p.val = OPEN → ((∃ m, m < 2 ∧ slotState s p.val m ≠ 0) ∨ ∃ l, l < 16 ∧ lnkOn (getLnk s l) = true ∧ lpid (getLnk s l) = p.val) → exec (.keyMode b) s = .next (setResult s 0x0D))

/-- R313, R316, R330, R405, R366: Safelight and firmware. SL_ATTACH and SL_DETACH set and clear SAFELIGHT and are logged; the detachment of a sealed partition ends its trace. FW_COMMIT makes the running slot primary and raises MINSVN to its SVN;
FW_UPDATE writes its image to the slot that does not run, which holds no image that verifies until the command is done and TRIAL is set (PartitionCommands says this of ROT_DONE): what the slot holds until then is the model's choice (log 127). -/
def Obligations.SafelightAndFirmware : Prop :=
  ∀ (s : State) (p : Nat) (img : Image),
    let b : Mailbox := .pf
    let k := getPart s p
    p = mbxArg s b 0 →
    (p < 8 → (partState s p = OPEN ∨ partState s p = SEALED) →
      (atFront s b 0x06 = true → ∃ t, exec (.slAttach b) s = .next t ∧ t.hub.rot.result = some 0 ∧ bit (partReg (getPart t p) 0x10) 3 = true ∧ (getPart t p).logCount = k.logCount + 1 ∧
        (∀ o, o ≠ 0x10 → partReg (getPart t p) o = partReg k o) ∧ t.cores = s.cores ∧ t.mcs = s.mcs) ∧
      (atFront s b 0x07 = true → ∃ t, exec (.slDetach b) s = .next t ∧ t.hub.rot.result = some 0 ∧ bit (partReg (getPart t p) 0x10) 3 = false ∧ (getPart t p).logCount = k.logCount + 1 ∧
        (partState s p = SEALED → bit (partReg (getPart t p) 0x2004) 0 = false) ∧ (partState s p = OPEN → partReg (getPart t p) 0x2004 = partReg k 0x2004) ∧ t.cores = s.cores ∧ t.mcs = s.mcs)) ∧
    (p < 8 → partState s p = ABSENT → atFront s b 0x06 = true → exec (.slAttach b) s = .next (setResult s 0x0E)) ∧
    (atFront s b 0x08 = true → ∃ t, exec (.fwCommit b) s = .next t ∧ t.hub.rot.result = some 0 ∧ t.hub.rot.minsvn.toNat = max s.hub.rot.minsvn.toNat (fld (hubReg s.hub 0x100100) 31 16) ∧
      t.hub.rot.primary = bit (hubReg s.hub 0x100100) 0 ∧ bit (hubReg t.hub 0x100100) 8 = false ∧ t.hub.rot.slotA = s.hub.rot.slotA ∧ t.hub.rot.slotB = s.hub.rot.slotB ∧ t.parts = s.parts) ∧
    (atFront s b 0x09 = true → mbxArg s b 2 ≤ 2 ^ 24 → ∃ t, exec (.fwUpdate b img) s = .next t ∧ t.hub.rot.result = some 0 ∧ t.hub.rot.writing = some img ∧ t.hub.rot.trial = s.hub.rot.trial ∧ t.hub.rot.primary = s.hub.rot.primary ∧
      (bit (hubReg s.hub 0x100100) 0 = true → t.hub.rot.slotA = none ∧ t.hub.rot.slotB = s.hub.rot.slotB) ∧ (bit (hubReg s.hub 0x100100) 0 = false → t.hub.rot.slotB = none ∧ t.hub.rot.slotA = s.hub.rot.slotA) ∧ t.parts = s.parts) ∧
    (atFront s b 0x09 = true → 2 ^ 24 < mbxArg s b 2 → exec (.fwUpdate b img) s = .next (setResult s 0x06))

/-- R295, R296, R301, R302, R303, R393: what the host sends to a function's configuration space. Until READY each request of the physical function is
answered with Request Retry Status (under RRS Software Visibility a read of the Vendor ID returns 0x0001), and so is each of a function in reset; then a
read answers the word, and a write reaches the bits that take writes (of the AER status: write one to clear): no payload size above 512 bytes, no read
request above 4,096 bytes, no power state but D0 and D3hot ever stands there. What the capabilities report at reset, Readiness Time Reporting among it:
the places and codes are those of PCI Express (log 8). A poisoned posted write is dropped and AER logs it. The data link comes up when
POWER_GOOD stands and PERST_N is deasserted.

R211, R212, R216, R295, R301: the end of a request that the roller has sent to the host. A completion takes its tag from the job that awaits it and the rest of the device stays; a failure
or a timeout (unless timeouts are disabled) ends the job with error HOST, DETAIL the completion status or 0xFF, and nothing is written at the destination. A poisoned completion is
logged by AER as well. Sectors that the host has altered no longer verify. Once the headers of containers have come, their payloads are
asked for. A tag of the print, the proof or the sweep leaves what that engine waits for, or ends its wait. A tag that no request carries changes nothing but what waits to leave. Which sector the error record names (log 22), and the code of the completion status (log 49: PRESUMED),
are the model's choices. -/
def Obligations.HostRequests : Prop :=
  (∀ (s : State) (fn : Fn) (off : BitVec 12) (v : Word),
     let o := off.toNat / 4 * 4
     let gives : Option Word → Out := fun w => .next { s with outbox := s.outbox ++ [.cfg fn w] }
     let memory := fun (t : State) => t.cores = s.cores ∧ t.clusters = s.clusters ∧ t.mcs = s.mcs ∧ t.lnks = s.lnks
     (s.hub.pwr.link = false → ∀ w sv, exec (.configurationRequest fn off w sv) s = .next s) ∧
     (s.hub.pwr.link = true → ready s = false → ∀ w sv, ¬ (sv = true ∧ o = 0 ∧ w = none) → exec (.configurationRequest fn off w sv) s = if fn = .pf then gives none else .next s) ∧
     (s.hub.pwr.link = true → ready s = false → fn = .pf → o = 0 → ∃ t x, exec (.configurationRequest fn off none true) s = .next t ∧ fld x 15 0 = 1 ∧
       t.outbox = s.outbox ++ [.cfg fn (some x)] ∧ t.hub = s.hub ∧ t.parts = s.parts ∧ memory t) ∧
     (s.hub.pwr.link = true → ready s = true → cfgLive s fn = false → ∀ w sv, exec (.configurationRequest fn off w sv) s = .next s) ∧
     (s.hub.pwr.link = true → ready s = true → cfgLive s fn = true → (getFn s fn).flr = true → ∀ w sv, exec (.configurationRequest fn off w sv) s = gives none) ∧
     (s.hub.pwr.link = true → ready s = true → cfgLive s fn = true → (getFn s fn).flr = false → ∀ sv,
       exec (.configurationRequest fn off none sv) s = gives (some (cfgRead s fn o)) ∧
       (cfgMask fn o = 0 → exec (.configurationRequest fn off (some v) sv) s = gives (some (cfgRead s fn o))) ∧
       (cfgMask fn o ≠ 0 → ∃ t, exec (.configurationRequest fn off (some v) sv) s = .next t ∧
         (∀ i, bit (cfgMask fn o) i = false → bit (cfgWord t fn o) i = bit (cfgWord s fn o) i) ∧
         (o ≠ AER → o ≠ 0x16C → cfgUnsupported o ((cfgWord s fn o &&& ~~~cfgMask fn o) ||| (v &&& cfgMask fn o)) = false → ∀ i, bit (cfgMask fn o) i = true → bit (cfgWord t fn o) i = bit v i) ∧
         (o = AER → ∀ i, bit (cfgMask fn o) i = true → bit (cfgWord t fn o) i = (bit (cfgWord s fn o) i && !(bit v i))) ∧
         (o = 0x78 → fn = .pf → fld (cfgWord s fn o) 7 5 ≤ 2 → fld (cfgWord s fn o) 14 12 ≤ 5 → fld (cfgWord t fn o) 7 5 ≤ 2 ∧ fld (cfgWord t fn o) 14 12 ≤ 5) ∧
         (o = 0x44 → fld (cfgWord s fn o) 1 0 ∈ [0, 3] → fld (cfgWord t fn o) 1 0 ∈ [0, 3]) ∧
         t.outbox.getLast? = some (.cfg fn (some (cfgRead t fn o))) ∧ (∀ x, x ≠ o → cfgWord t fn x = cfgWord s fn x) ∧ memory t)) ∧
     (let w := cfgReset .pf; w 0 = 0x4E011D9C#32 ∧ w 0x44 = 8#32 ∧ fld (w 0x74) 2 0 = 2 ∧ bit (w 0x74) 28 = true ∧ fld (w 0x94) 4 0 = 31 ∧ fld (w 0x14C) 31 16 = 8 ∧ fld (w 0x1A4) 11 0 = 105 + 512 * 5 ∧
       fld (w 0x1A4) 23 12 = 96 + 512 * 4 ∧ fld (w 0x1A8) 11 0 = 191 + 512 * 4 ∧ fld (cfgReset (.vf 0) 0x1A8) 11 0 = 115 + 512 * 4 ∧ fld (w 0x1C4) 23 16 = 8 ∧ fld (w 0x1C4) 7 0 = 0x62) ∧
     (cfgLive s fn = true → ∃ t, exec (.poisonedWrite fn) s = .next t ∧ bit (cfgWord t fn AER) 12 = true ∧ (∀ i, i ≠ 12 → bit (cfgWord t fn AER) i = bit (cfgWord s fn AER) i) ∧
       (∀ x, x ≠ AER → cfgWord t fn x = cfgWord s fn x) ∧ memory t ∧ t.outbox = s.outbox) ∧
     (cfgLive s fn = false → exec (.poisonedWrite fn) s = .next s) ∧
     (s.hub.pwr.good = true → s.hub.pwr.perst = false → exec .dataLinkUp s = .next { s with hub := { s.hub with pwr := { s.hub.pwr with link := true } } }) ∧
     (s.hub.pwr.good = false ∨ s.hub.pwr.perst = true → exec .dataLinkUp s = .next s)) ∧
  (∀ (s : State) (tag : Nat),
     let gone := fun (t : State) => ∀ q ∈ t.hub.reqs, q.tag ≠ tag
     (s.hub.reqs.find? (fun r => r.tag == tag && r.sent) = none → (bit (cfgWord s .pf 0x98) 4 = false → exec (.completionTimeout tag) s = .next (hostKick s)) ∧
       ∀ st host, exec (.completion tag st host) s = .next (hostKick s)) ∧
     (bit (cfgWord s .pf 0x98) 4 = true → exec (.completionTimeout tag) s = .next s) ∧
     (∀ (r : HostReq) (cl : ClIx) (ch : Fin 4) (j : Job), s.hub.reqs.find? (fun r => r.tag == tag && r.sent) = some r → r.for_ = .roller cl.val ch.val →
       (getChan (getCl s cl.val) ch.val).job = some j → tag ∈ j.tags →
       let more := j.body = true ∨ j.pages ≠ [] ∨ j.tags.erase tag ≠ []
       (let rs := bodyRanges s (jobWho s cl.val ch.val j) j.a
        ¬ more → dSpace j.a.d = 3 → ∃ t j', exec (.completion tag .ok .kept) s = .next t ∧ (getChan (getCl t cl.val) ch.val).job = some j' ∧ j'.body = true ∧ j'.reads = rs ∧
          j'.tags.length = (hostPieces s j.pid rs).length ∧ (getCl t cl.val).staging = (getCl s cl.val).staging ∧ t.cores = s.cores ∧ t.mcs = s.mcs ∧ t.parts = s.parts) ∧
       (∀ host, more → ∃ t, exec (.completion tag .ok host) s = .next t ∧ gone t ∧ (getChan (getCl t cl.val) ch.val).job = some { j with tags := j.tags.erase tag } ∧
         (∀ n, n ≠ ch.val → getChan (getCl t cl.val) n = getChan (getCl s cl.val) n) ∧ (getCl t cl.val).staging = (getCl s cl.val).staging ∧ t.cores = s.cores ∧ t.mcs = s.mcs ∧ t.parts = s.parts) ∧
       (∃ t, exec (.completion tag .ok .altered) s = .next t ∧ ∀ h ∈ t.hub.host, reqHits r h = false) ∧
       (∀ (i : Instr) (d : Nat), (i = .completionTimeout tag ∧ bit (cfgWord s .pf 0x98) 4 = false ∧ d = 0xFF ∨ (∃ host, i = .completion tag .ur host) ∧ d = 1 ∨ (∃ host, i = .completion tag .ca host ∨ i = .completion tag .poisoned host) ∧ d = 4) →
         (j.core = none → channelHeld s cl.val ch.val = false ∧ bit (getCl s cl.val).ringStop ch.val = false) →
         ∃ t, exec i s = .next t ∧ gone t ∧ (getChan (getCl t cl.val) ch.val).job = none ∧ (getCl t cl.val).staging = (getCl s cl.val).staging ∧ t.cores = s.cores ∧ t.mcs = s.mcs ∧
           (bit (clReg (getCl s cl.val) 0x1800) 31 = false → let w := clReg (getCl t cl.val) 0x1800; fld w 7 0 = 6 ∧ fld w 15 8 = d ∧ fld w 17 16 = 3 ∧ fld w 19 18 = ch.val ∧ bit w 31 = true ∧
             let x := clReg (getCl t cl.val) 0x1808; fld x 19 0 = r.dev / 2 ^ 21 % 2 ^ 20 ∧ fld x 31 20 = r.dev % 2 ^ 21 / 512) ∧
           bit (partReg (getPart t j.pid) 0x40) 4 = true ∧ (j.core = none → bit (getCl t cl.val).ringBad ch.val = true)) ∧
       (r.part < 8 → ∃ t, exec (.completion tag .poisoned .kept) s = .next t ∧ bit (tget (getPart t r.part).fn.cfg AER 0) 12 = true)) ∧
     (∀ (r : HostReq) (p : PartIx) (e : Nat) (l : List Nat), s.hub.reqs.find? (fun r => r.tag == tag && r.sent) = some r → r.for_ = .engine p.val e → tfind (getPart s p.val).reads e = some l → tag ∈ l →
       (∃ t, exec (.completion tag .ok .kept) s = .next t ∧ gone t ∧ tfind (getPart t p.val).reads e = some (l.erase tag) ∧ (getPart t p.val).regs = (getPart s p.val).regs ∧ t.cores = s.cores ∧ t.mcs = s.mcs ∧ t.clusters = s.clusters) ∧
       (∃ t, exec (.completion tag .ur .kept) s = .next t ∧ gone t ∧ tfind (getPart t p.val).reads e = none ∧ (getPart t p.val).regs = (getPart s p.val).regs ∧ t.cores = s.cores ∧ t.mcs = s.mcs ∧ t.clusters = s.clusters)))

/-- R308, R325, R326, R327, R328, R393: what a function's DOE mailbox serves. An object of a type that it supports is answered, one above 4,096 DW is no object; GET_MEASUREMENTS answers the blocks of the
function and clears REATTEST. SEAL waits behind the mailbox commands that have come before it; when its turn comes it refuses with the first failing reason or makes the partition SEALED under its policy with a sealed-read key, salt and log entry; nothing
of its programs or data changes. Discovery lists the three types; SPDM offers 1.2 and 1.3, answers capabilities and algorithms under either, and refuses PSK and mutual authentication; the
codes and layouts are the standards' (log 49, PRESUMED). The rest of the answers and the key's bits are free (log 1, log 10). -/
def Obligations.DoeAndSeal : Prop :=
  ∀ (s : State) (fn : Fn) (o : DoeObject) (p : PartIx) (policy : BitVec 8) (expect : BitVec 384),
    let mem := fun (t : State) => t.cores = s.cores ∧ t.clusters = s.clusters ∧ t.mcs = s.mcs ∧ t.lnks = s.lnks
    (4096 < o.payload.length → exec (.doeRequest fn o) s = .refused (.illFormed "DOE_REQUEST")) ∧
    (o.payload.length ≤ 4096 → doeLive s fn = true → o.typ.toNat ≤ 2 → ∃ t r, exec (.doeRequest fn o) s = .next t ∧ r.typ = o.typ ∧ (getFn t fn).doe = some r ∧ t.outbox = s.outbox ++ [.doe fn r] ∧ mem t) ∧
    (doeLive s fn = true →
      (∀ i, i < 256 → exec (.doeRequest fn { typ := 0, payload := [w32 i] }) s = (let r : DoeObject := { typ := 0, payload := [if i ≤ 2 then w32 (1 + i * 2 ^ 16 + (i + 1) % 3 * 2 ^ 24) else 0xFFFF#32] }
        .next { modFn s fn (fun x => { x with doe := some r }) with outbox := s.outbox ++ [.doe fn r] })) ∧
      (∃ t, exec (.doeRequest fn { typ := 1, payload := [0x00008410#32] }) s = .next t ∧ (getFn t fn).spdm = 0 ∧ t.outbox = s.outbox ++ [.doe fn { typ := 1, payload := [0x00000410#32, 0x12000200#32, 0x00001300#32] }] ∧ mem t) ∧
      (∀ v ∈ [0x12, 0x13], (∃ t x, exec (.doeRequest fn { typ := 1, payload := [w32 (v + 0xE100), 0, 0, 0, 0] }) s = .next t ∧ (getFn t fn).spdm = v ∧
          t.outbox = s.outbox ++ [.doe fn { typ := 1, payload := [w32 (v + 0x6100), 0x00001400#32, 0x000262D6#32] ++ x }] ∧ mem t) ∧
        ((getFn s fn).spdm = v → ∃ t, exec (.doeRequest fn { typ := 1, payload := [w32 (v + 0xE300)] }) s = .next t ∧
          t.outbox = s.outbox ++ [.doe fn { typ := 1, payload := bytesToWords (spdmAlgorithms v) }] ∧ (getFn t fn).spdm = v) ∧
        ((getFn s fn).spdm = v → ∀ c ∈ [0xE6, 0xEA], ∃ t, exec (.doeRequest fn { typ := 1, payload := [w32 (v + c * 256)] }) s = .next t ∧
          t.outbox = s.outbox ++ [.doe fn { typ := 1, payload := [w32 (v + 0x7F00 + 7 * 2 ^ 16 + c * 2 ^ 24)] }]))) ∧
    (o.payload.length ≤ 4096 → doeLive s fn = false ∨ 2 < o.typ.toNat → exec (.doeRequest fn o) s = .next s) ∧
    (fn = .pf ∨ (∃ q, fn = .vf q) → ∃ t, exec (.doeAbort fn) s = .next t ∧ (getFn t fn).doe = none ∧ mem t ∧ t.outbox = s.outbox) ∧
    (doeLive s .pf = true → ∃ t m, exec (.getMeasurements .pf) s = .next t ∧ t.outbox = s.outbox ++ [.doe .pf { typ := 1, payload := m }] ∧ m.length = 41 ∧ m[27]? = some (w32 (fld (bootReg s) 31 16 + s.hub.rot.minsvn.toNat * 2 ^ 16)) ∧ t.parts = s.parts) ∧
    (doeLive s (.vf p) = true → ∃ t m, exec (.getMeasurements (.vf p)) s = .next t ∧ t.outbox = s.outbox ++ [.doe (.vf p) { typ := 1, payload := m }] ∧ m.length = 68 ∧
      bit (partReg (getPart t p.val) 0x10) 8 = false ∧ (∀ x, x ≠ 0x10 → partReg (getPart t p.val) x = partReg (getPart s p.val) x) ∧ (∀ d, d ≠ p.val → getPart t d = getPart s d) ∧ mem t) ∧
    (let q := getPart s p.val
     let st := partReg q 0x10
     let bad := fun (c : Nat) => exec (.seal p policy expect) s = .next { s with outbox := s.outbox ++ [.doe (.vf p) { typ := 2, payload := [w32 c] }] }
     let conflict := bit policy 1 = true ∧ fld st 7 6 ≠ 0 ∨ bit policy 0 = true ∧ q.fn.secure = false
     (doeLive s (.vf p) = false → exec (.seal p policy expect) s = .next s) ∧
     (doeLive s (.vf p) = true → s.hub.rot.queue ≠ [] → exec (.seal p policy expect) s = .next { s with hub := { s.hub with rot := { s.hub.rot with queue := s.hub.rot.queue ++ [.seal p policy expect] } } }) ∧
     (∀ b c, s.hub.rot.queue = [.mbx b, .seal p policy expect] → s.hub.rot.result = some c → fld (mbxReg s b 0x0) 7 0 ≠ 5 → fld (mbxReg s b 0x0) 7 0 ≠ 9 → partState s p.val = SEALED → fld policy 7 2 = 0 →
       ∃ t, exec (.rotDone b) s = .next t ∧ t.hub.rot.queue = [] ∧ t.outbox.getLast? = some (.doe (.vf p) { typ := 2, payload := [w32 0x0A] }) ∧ fld (mbxReg t b 0x4) 1 0 = 2 ∧ fld (mbxReg t b 0x4) 15 8 = c % 256) ∧
     (doeLive s (.vf p) = true → s.hub.rot.queue = [] → fld policy 7 2 = 0 →
       (partState s p.val = SEALED → bad 0x0A) ∧
       (partState s p.val = OPEN → meas10 s p.val ≠ expect → bad 0x0B) ∧
       (partState s p.val = OPEN → meas10 s p.val = expect → conflict → bad 0x05) ∧
       (partState s p.val = OPEN → meas10 s p.val = expect → ¬ conflict → ∃ t k salt, exec (.seal p policy expect) s = .next t ∧ partState t p.val = SEALED ∧ (getPart t p.val).policy = policy ∧
         bit (partReg (getPart t p.val) 0x10) 4 = bit policy 0 ∧ (getPart t p.val).sealKey = k ∧ (getPart t p.val).sealSalt = salt ∧ (getPart t p.val).sealCtr = 0 ∧ (getPart t p.val).logCount = q.logCount + 1 ∧
         (bit st 3 = false → bit (partReg (getPart t p.val) 0x2004) 0 = false) ∧ (bit st 3 = true → partReg (getPart t p.val) 0x2004 = partReg q 0x2004) ∧
         t.outbox.getLast? = some (.doe (.vf p) { typ := 2, payload := [0] ++ bytesToWords (leBytes 32 k.toNat) ++ [salt] }) ∧
         (getPart t p.val).grants = q.grants ∧ (getPart t p.val).pt2 = q.pt2 ∧ (getPart t p.val).pt3 = q.pt3 ∧ t.cores = s.cores ∧ t.mcs = s.mcs ∧ t.lnks = s.lnks ∧ (∀ d, d ≠ p.val → getPart t d = getPart s d) ∧
         (∀ c, (getCl t c).staging = (getCl s c).staging))))

/-- R305, R307, R309, R326, R327, R393: IDE and the sideband. A key set takes its keys; the loss of a stream makes it insecure and is logged for a partition SEALED under REQUIRE_IDE, and so is its return, after which messages
that were held may leave. SET_ENDPOINT_ID sets SB_STAT when it reaches the sideband, at 0x52 or by a dynamic address; a sideband message to its address that fails its checks is counted in SB_ERR and dropped; MCTP control and PLDM are answered while power is good, SPDM from READY on, the
device's measurements among it; an answer leaves in packets of 64 bytes. Get Endpoint ID answers SB_STAT.EID, a PLDM sensor its reading (the layouts are the standards', log 49, PRESUMED). -/
def Obligations.IdeAndSideband : Prop :=
  ∀ (s : State) (p : PartIx) (fn : Fn) (k : Fin 2) (eid : BitVec 8) (bus : SbBus) (m : Mctp),
    let q := getPart s p.val
    let logs := partState s p.val = SEALED ∧ bit (partReg q 0x10) 4 = true
    let mem := fun (t : State) => t.cores = s.cores ∧ t.clusters = s.clusters ∧ t.mcs = s.mcs ∧ t.lnks = s.lnks
    (ready s = true → cfgLive s fn = true → ∃ t, exec (.ideKm fn k) s = .next t ∧ bit (getFn t fn).ide k.val = true ∧ (∀ j, j < 2 → j ≠ k.val → bit (getFn t fn).ide j = bit (getFn s fn).ide j) ∧ (getFn t fn).secure = (getFn s fn).secure ∧ mem t) ∧
    (q.fn.secure = true → ∃ t, exec (.ideLost (.vf p)) s = .next t ∧ (getPart t p.val).fn.secure = false ∧ bit (partReg (getPart t p.val) 0x10) 5 = false ∧
      (logs → (getPart t p.val).logCount = q.logCount + 1 ∧ ideHeld (getPart t p.val) = true) ∧ (¬ logs → (getPart t p.val).log = q.log ∧ (getPart t p.val).logCount = q.logCount) ∧
      (∀ d, d ≠ p.val → getPart t d = getPart s d) ∧ mem t ∧ t.hub = s.hub) ∧
    (q.fn.secure = false → exec (.ideLost (.vf p)) s = .next s) ∧
    (∃ t, exec (.ideLost .pf) s = .next t ∧ t.hub.pf.secure = false ∧ t.parts = s.parts ∧ mem t) ∧
    (q.fn.secure = false → q.fn.ide ≠ 0 → vfLive s p.val = true → ∃ t, exec (.ideRestored (.vf p)) s = .next t ∧ (getPart t p.val).fn.secure = true ∧ bit (partReg (getPart t p.val) 0x10) 5 = true ∧
      ideHeld (getPart t p.val) = false ∧ (getPart t p.val).logCount = q.logCount + (if partState s p.val = SEALED ∧ bit (partReg q 0x10) 4 = true then 1 else 0) ∧
      (partState s p.val ≠ SCRUB → ∀ v ∈ (getPart t p.val).fn.pend, msixClear q.fn v = false) ∧ (∀ d, d ≠ p.val → getPart t d = getPart s d) ∧ mem t) ∧
    (q.fn.secure = true ∨ q.fn.ide = 0 ∨ vfLive s p.val = false → exec (.ideRestored (.vf p)) s = .next s) ∧
    (∀ i3c d, s.hub.pwr.good = true → (bus = .i2c 0x52 ∧ i3c = false ∧ d = 0 ∨ bus = .setdasa 0x52 d ∧ i3c = true ∨ bus = .entdaa d ∧ i3c = true) → ∃ t, exec (.setEndpointId eid bus) s = .next t ∧ HubRegs s t [0x2000] ∧
      fld (hubReg t.hub 0x2000) 7 0 = eid.toNat ∧ bit (hubReg t.hub 0x2000) 8 = i3c ∧ fld (hubReg t.hub 0x2000) 15 9 = d.toNat ∧ bit (hubReg t.hub 0x2000) 16 = true ∧
      sbAddr t = (if i3c = true then d.toNat else 0x52)) ∧
    (∀ a d, a ≠ 0x52#7 → exec (.setEndpointId eid (.i2c a)) s = .next s ∧ exec (.setEndpointId eid (.setdasa a d)) s = .next s) ∧
    (s.hub.pwr.good = true → m.addr.toNat = sbAddr s →
      (m.good = false → ∃ t, exec (.mctpMessage m) s = .next t ∧ HubRegs s t [0x2004] ∧ (hubReg t.hub 0x2004).toNat = satAdd 0xFFFF (hubReg s.hub 0x2004).toNat 1) ∧
      (m.good = true → (m.typ = 0 ∨ m.typ = 1 ∨ m.typ = 5 ∧ ready s = true) → ∃ t b, exec (.mctpMessage m) s = .next t ∧ t.outbox = s.outbox ++ mctpPackets m.typ.toNat b ∧
        t.hub = { s.hub with sbSpdm := t.hub.sbSpdm } ∧ (m.typ ≠ 5 → t.hub = s.hub) ∧ t.parts = s.parts ∧ mem t ∧
        (∀ v, (v = 0x12 ∨ v = 0x13) → m.typ = 5 → s.hub.sbSpdm = v → m.bytes = [BitVec.ofNat 8 v, 0xE0#8, 0#8, 1#8] → b.take 2 = [BitVec.ofNat 8 v, 0x60#8] ∧ (b.drop 15).take 48 = digestBytes Config.romDigest) ∧
        (m.typ = 0 → m.bytes = [0x80#8, 2#8] → b.take 5 = [0#8, 2#8, 0#8, BitVec.ofNat 8 (fld (hubReg s.hub 0x2000) 7 0), 0#8]) ∧
        (∀ i, m.typ = 1 → m.bytes = [0x80#8, 2#8, 0x11#8] ++ leBytes 2 (Config.sensorId i).toNat → (List.range 8).find? (fun j => Config.sensorId j == Config.sensorId i) = some i → i < 6 →
          b.take 6 = [0#8, 2#8, 0x11#8, 0#8, if i < 5 then 1#8 else 2#8, 0#8] ∧ b.drop 10 = (if i < 4 then [BitVec.ofNat 8 (fld (hubReg s.hub 0x1018) (8 * i + 7) (8 * i))]
            else if i = 4 then [BitVec.ofNat 8 (fld (hubReg s.hub 0x101C) 7 0)] else leBytes 2 (fld (hubReg s.hub 0x1014) 15 0)))) ∧
      (m.good = true → m.typ = 5 → ready s = false → exec (.mctpMessage m) s = .next s)) ∧
    (s.hub.pwr.good = false ∨ m.addr.toNat ≠ sbAddr s → exec (.mctpMessage m) s = .next s) ∧
    (s.hub.pwr.good = false → exec (.setEndpointId eid bus) s = .next s)

/-- R303, R332, R333, R293: the fixer pass and the resets that start it. A function's reset puts its own state, its doorbells and host write ring among it, back and starts the pass of its partition, which keeps its grants; that of the physical function does so for every partition that exists, and clears VF Enable, and a hot reset also takes
the link down. At the end of a pass every frame of the partition is zero and free, no page is valid, the log is empty, its ports are disabled and hold nothing of it, its stations hold no kernel and no error, the counters of its ports and stations are 0 with their holding copies, and its state is OPEN, or ABSENT with nothing granted after a teardown. A print ends without DONE. When in the pass each thing is cleared (log 46), what of a
function and of the hub a reset puts back (log 47), and how far doorbells go back (log 98), are the model's readings. -/
def Obligations.FixerPass : Prop :=
  ∀ (s : State) (p : PartIx),
    let k := getPart s p.val
    let zeroed := fun (t : State) (r : Nat) => ∀ c ∈ ownedCores s r, (getCore t c).sram = [] ∧ (getCore t c).prog = [] ∧ (getCore t c).banks = [] ∧ (getCore t c).stores = [] ∧ (getCore t c).firings = [] ∧ (getCore t c).ctxs = []
    let runs := fun (t : State) (r : Nat) => partState t r = SCRUB ∧ (getPart t r).pass = some false ∧ (getPart t r).grants = (getPart s r).grants ∧ partReg (getPart t r) 0x14 = partReg (getPart s r) 0x14 ∧ (getPart t r).step.print = none ∧ (getPart t r).reads = [] ∧ zeroed t r
    (k.pass = none → exec (.fixerPassEnd p) s = .next s) ∧
    (∀ td, k.pass = some td → ∃ t, exec (.fixerPassEnd p) s = .next t ∧ (getPart t p.val).pass = none ∧ partState t p.val = (if td then ABSENT else OPEN) ∧
      (∀ e ∈ k.pt2, ptValid e.2 = true → ∀ a, mread (frameMem (getMc t (ptPkg e.2)) (ptFrame e.2)) a = Mem.blank) ∧ (getPart t p.val).pt2 = [] ∧ (getPart t p.val).pt3 = [] ∧
      (∀ o, (o = 0x18 ∨ o = 0x20 ∨ o = 0x28 ∨ o = 0x94 ∨ o = 0x11C ∨ o = 0x150 ∨ o = 0x1A4 ∨ o = 0x2040) → partReg (getPart t p.val) o = 0) ∧
      (getPart t p.val).log = [] ∧ (getPart t p.val).logCount = 0 ∧ (getPart t p.val).policy = 0 ∧
      (td = false → (getPart t p.val).grants = k.grants ∧ partReg (getPart t p.val) 0x14 = partReg k 0x14 ∧ partReg (getPart t p.val) 0x1C = partReg k 0x1C) ∧
      (td = true → (getPart t p.val).grants = Grants.none_ ∧ partReg (getPart t p.val) 0x14 = 0 ∧ partReg (getPart t p.val) 0x1C = 0 ∧ partReg (getPart t p.val) 0x24 = 1) ∧
      (∀ l o, l < 16 → portOwner s l = some p.val → o ∈ [0x20, 0x24, 0x28, 0x2C, 0x30, 0x120, 0x124, 0x128, 0x12C, 0x130] → lnkReg (getLnk t l) o = 0) ∧
      (∀ m o, m < 16 → stationOwner s m = some p.val → (o ∈ [0x1050, 0x1058, 0x105C, 0x1060, 0x1064, 0x1068, 0x106C, 0x1164, 0x1168, 0x116C] ∨ ∃ i, i < 512 ∧ o = 0x1800 + 4 * i) → mcReg (getMc t m) o = 0) ∧
      (∀ l, l < 16 → lpid (getLnk s l) = p.val → lnkOn (getLnk t l) = false ∧ (getLnk t l).txq = [] ∧ (getLnk t l).held = [] ∧ (getLnk t l).fwd = []) ∧ bit (hubReg t.hub 0x10) 4 = true ∧ t.cores = s.cores ∧ (∀ d, d ≠ p.val → getPart t d = getPart s d)) ∧
    (vfLive s p.val = false → exec (.vfFlr p) s = .next s) ∧
    (vfLive s p.val = true → ∃ t, exec (.vfFlr p) s = .next t ∧ (getPart t p.val).fn.cfg = [] ∧ (getPart t p.val).fn.msix = [] ∧ (getPart t p.val).fn.secure = false ∧ (∀ o ∈ [0x2C, 0x80, 0x84, 0x88, 0x8C, 0x90], partReg (getPart t p.val) o = 0) ∧
      (∀ cl n, n < 4 → ringPid (getCl s cl) n = p.val → clReg (getCl t cl) (0x1828 + 0x10 * n) = 0) ∧
      (partState s p.val = OPEN ∨ partState s p.val = SEALED → runs t p.val ∧ (getPart t p.val).fn.flr = true) ∧
      (partState s p.val = ABSENT → k.pass = none → partState t p.val = ABSENT ∧ (getPart t p.val).fn.flr = false ∧ t.cores = s.cores) ∧ (∀ d, d ≠ p.val → (getPart t d).grants = (getPart s d).grants ∧ partState t d = partState s d)) ∧
    (∃ t, exec .pfFlr s = .next t ∧ t.hub.pf.cfg = [] ∧ t.hub.pf.msix = [] ∧ t.hub.pf.secure = false ∧ (∀ o ∈ [0x14, 0x18, 0x1C, 0x20, 0x24, 0x28, 0x34], hubReg t.hub o = 0) ∧ hubReg t.hub 0x8 = 0xFFFF#32 ∧ hubReg t.hub 0x300004 = 0x10000#32 ∧ (∀ r, r < 8 → vfLive t r = false) ∧
      (∀ r, r < 8 → (partState s r = OPEN ∨ partState s r = SEALED → runs t r) ∧ (partState s r = ABSENT → partState t r = ABSENT)) ∧
      (∀ r, r < 8 → (getPart t r).pass.isSome = true → t.hub.pf.flr = true) ∧ t.hub.rot.slotA = s.hub.rot.slotA ∧ t.hub.rot.slotB = s.hub.rot.slotB ∧ t.hub.rot.phys = s.hub.rot.phys ∧
      exec .hotReset s = .next { t with hub := { t.hub with pwr := { t.hub.pwr with link := false } } })

/-- R311, R312, R314, R336, R374, R390, R391: start-up, which begins when POWER_GOOD stands and PERST_N is deasserted, whichever comes last. The ROM runs the first image that it accepts, of the slot that the preference and TRIAL name or of the other; a failure stops it with its code in ROT_BOOT.FAIL, READY
as it was, and an event over the sideband. Else the identity, counter and firmware keys are derived and the firmware key certified, the logical clusters of each die stand on its working physical ones in ascending order, and their cores on the working cores, sub-channels that do not train are retired and count as a package that left 14.4 Gb/s, spare lanes that failed their self-test are out of use, and then
READY is set and reported. The model's choices: commands that wait stay (log 39), what is lost and kept (logs 52, 53), the ascending order (log 123), and that the last step comes on an empty queue (log 137).

R303, R373, R374, R375, R383, R384, R392: what ends operation. PERST_N asserted, the input below its stop threshold, a rail out of regulation and a reading of 110 °C or more leave nothing of SRAM, LPDDR6, ports and partitions; the flash and the commands that wait stay. Asserted PERST_N leaves rails and the
registers of power management and sideband; the others take every rail away. After a trip conversion starts again only once the input has been removed. What is kept is in part the model's choice (logs 39, 52, 53). -/
def Obligations.StartUpAndPowerLoss : Prop :=
  (∀ (s : State) (b : BootFacts),
     let r := s.hub.rot
     let img := fun (x : Bool) => if x then r.slotB else r.slotA
     let ok := fun (x : Bool) => r.keyOk = true ∧ ∃ i, img x = some i ∧ fld i.header 31 0 = 0x44465756 ∧ i.sigOk = true ∧ fld i.header 63 48 = 0 ∧ fld i.header 511 96 = 0 ∧ fld i.header 2047 1280 = 0 ∧
       r.minsvn.toNat ≤ fld i.header 47 32 ∧ fld i.header 95 64 ≤ 2 ^ 24 - 256
     let first := if r.trial then !r.primary else r.primary
     let bad := badOf b
     let stops := fun (c : Nat) => ∃ t m, exec (.perstNDeassert b) s = .next t ∧ fld (hubReg t.hub 0x100100) 7 4 = c ∧ hubReg t.hub 0x4 = hubReg s.hub 0x4 ∧ t.outbox = s.outbox ++ mctpPackets 1 m ∧ t.hub.pwr.perst = false ∧ t.hub.rot.trial = (if c = 2 then r.trial else false)
     (s.hub.pwr.perst = false → exec (.perstNDeassert b) s = .next s) ∧
     (s.hub.pwr.perst = true → s.hub.pwr.good = false → exec (.perstNDeassert b) s = .next { s with hub := { s.hub with pwr := { s.hub.pwr with perst := false, facts := some b } } }) ∧
     (s.hub.pwr.perst = true → s.hub.pwr.good = true →
       (b.counterOk = false → stops 2) ∧
       (b.counterOk = true → ¬ ok false → ¬ ok true → stops 1) ∧
       (b.counterOk = true → (ok false ∨ ok true) → b.pufOk = false ∨ r.helperOk = false → stops 3) ∧
       (b.counterOk = true → (ok false ∨ ok true) → b.pufOk = true → r.helperOk = true → (∃ d, d < 4 ∧ (working bad d).length < 40) → stops 4) ∧
       (b.counterOk = true → (ok false ∨ ok true) → b.pufOk = true → r.helperOk = true → (∀ d, d < 4 → 40 ≤ (working bad d).length) → dramFails b = true → stops 5) ∧
       (b.counterOk = true → b.pufOk = true → r.helperOk = true → (∀ d, d < 4 → 40 ≤ (working bad d).length) → dramFails b = false →
         ∀ slot i, ((slot = first ∧ ok first) ∨ (slot = !first ∧ ¬ ok first ∧ ok (!first))) → img slot = some i → ∃ t, exec (.perstNDeassert b) s = .next t ∧ ready t = ready s ∧ t.outbox = s.outbox ∧ t.hub.pwr.booting = true ∧
           (s.pending = [] → (∀ e ∈ s.clusters, ∀ r ∈ e.2.trace, traceMay s r = false) → ∃ t2, step t = .next t2 ∧ ready t2 = true ∧ t2.outbox = s.outbox ++ [.readiness] ∧ t2.hub.pwr.booting = false ∧
             (hubReg t2.hub 0x1028).toNat = 950 ∧ bit (hubReg t2.hub 0x1004) 2 = false ∧ (hubReg t2.hub 0x100C).toNat = b.floorW.toNat ∧ t2.hub.rot.digest = i.digest) ∧
           bit (hubReg t.hub 0x4) 1 = decide (b.slow ≠ 0 ∨ b.badSub ≠ []) ∧ fld (hubReg t.hub 0x2C) 18 13 = ((List.range 32).filter (fun n => !bit b.badLanes n)).length ∧
           (∀ l, l < 16 → (bit b.badLanes l = true → bit (getLnk t l).spareBad 0 = true) ∧ (bit b.badLanes (16 + l) = true → bit (getLnk t l).spareBad 1 = true)) ∧
           bit (hubReg t.hub 0x100100) 0 = slot ∧ bit (hubReg t.hub 0x100100) 1 = decide (slot ≠ first) ∧ fld (hubReg t.hub 0x100100) 7 4 = 0 ∧ bit (hubReg t.hub 0x100100) 8 = (r.trial && decide (slot = first)) ∧
           fld (hubReg t.hub 0x100100) 31 16 = fld i.header 47 32 ∧ t.hub.rot.digest = i.digest ∧ (∃ x, t.hub.rot.keys = some x ∧ x.ik = Config.hkdfKey (asciiBytes [0x44, 0x5A, 0x56, 0x2D, 0x49, 0x4B]) ∧
             x.fk = Config.hkdfKey (asciiBytes [0x44, 0x5A, 0x56, 0x2D, 0x46, 0x4B] ++ digestBytes i.digest) ∧ x.fkCert = Config.certify x.ik x.fk) ∧ t.hub.rot.drawn = 0 ∧ t.hub.rot.trial = false ∧ t.hub.rot.primary = r.primary ∧ t.hub.rot.minsvn = r.minsvn ∧
           (∀ cl, cl < 160 → some (tget t.hub.rot.phys cl 0) = (working bad (cl / 40))[cl % 40]?) ∧ (∀ c, c < 5120 → some (coreAt t.hub.rot c) = (goodCores (badCoresOf b) (physCl t.hub.rot (c / 32)))[c % 32]?) ∧ fld (hubReg t.hub 0x2C) 3 0 = ((List.range 4).map (fun d => (working bad d).length - 40)).sum ∧
           (∀ x ∈ b.badSub, bit (mcReg (getMc t x.1.val) 0x200) x.2.val = true) ∧ t.cores = s.cores ∧ t.parts = s.parts)) ∧
     (∀ k : Fin 7, k.val < 6 → s.hub.pwr.input = true → s.hub.pwr.rails = k.val → exec (.railInRegulation k) s = .next { s with hub := { s.hub with pwr := { s.hub.pwr with rails := k.val + 1, good := false } } }) ∧
     (s.hub.pwr.input = true → s.hub.pwr.rails = 6 → s.hub.pwr.perst = true → exec (.railInRegulation 6) s = .next { s with hub := { s.hub with pwr := { s.hub.pwr with rails := 7, good := true } } }) ∧
     (s.hub.pwr.input = true → s.hub.pwr.rails = 6 → s.hub.pwr.perst = false → s.hub.pwr.facts = some b →
       exec (.railInRegulation 6) s = exec (.perstNDeassert b) { s with hub := { s.hub with pwr := { s.hub.pwr with rails := 7, good := true, perst := true } } }) ∧
     (∀ k : Fin 7, s.hub.pwr.input = false ∨ s.hub.pwr.rails ≠ k.val → exec (.railInRegulation k) s = .next s)) ∧
  (∀ (s : State) (k : Fin 7) (x : Temps),
     let w := s.hub.pwr
     let rs := [x.c0, x.c1, x.c2, x.c3, x.h]
     let lost := fun (t : State) => t.cores = [] ∧ t.clusters = [] ∧ t.mcs = [] ∧ t.lnks = [] ∧ t.parts = [] ∧ t.mesh = [] ∧ ready t = false ∧ t.hub.rot.queue = [] ∧ t.hub.rot.slotA = s.hub.rot.slotA ∧
       t.hub.rot.slotB = s.hub.rot.slotB ∧ t.hub.rot.primary = s.hub.rot.primary ∧ t.hub.rot.trial = s.hub.rot.trial ∧ t.hub.rot.minsvn = s.hub.rot.minsvn ∧ t.hub.rot.loads = s.hub.rot.loads ∧
       t.hub.rot.sessions = s.hub.rot.sessions ∧ t.hub.rot.ctr3 = s.hub.rot.ctr3 ∧ t.hub.rot.keys = none ∧ t.hub.rot.writing = none ∧ t.pending = s.pending
     let off := fun (t : State) => lost t ∧ t.hub.pwr.rails = 0 ∧ t.hub.pwr.good = false ∧ t.hub.pwr.input = false ∧ t.hub.pwr.perst = w.perst ∧ t.hub.regs = []
     (∃ t, exec .perstNAssert s = .next t ∧ lost t ∧ t.hub.pwr = { w with perst := true, link := false, facts := none, booting := false } ∧ hubReg t.hub 0x1000 = 0 ∧ pmState t = 0 ∧
       (∀ o, 0x1008 ≤ o → o < 0x3000 → hubReg t.hub o = hubReg s.hub o)) ∧
     (w.input = true → ∃ t, exec .inputStopThreshold s = .next t ∧ off t ∧ t.hub.pwr.trip = w.trip) ∧
     (w.input = false → exec .inputStopThreshold s = .next s) ∧
     (w.input = true → k.val < w.rails → ∃ t, exec (.railOutOfRegulation k) s = .next t ∧ off t) ∧
     (w.input = false ∨ w.rails ≤ k.val → exec (.railOutOfRegulation k) s = .next s) ∧
     (w.rails ≠ 0 → (∃ v ∈ rs, 110 ≤ v.toInt) → ∃ t, exec (.temperatureSample x) s = .next t ∧ off t ∧ t.hub.pwr.trip = true ∧ t.hub.pwr.alert = true) ∧
     (w.rails = 0 → exec (.temperatureSample x) s = .next s) ∧
     (w.trip = true → exec .inputStartThreshold s = .next s ∧ exec .inputRemovedAfterTrip s = .next { s with hub := { s.hub with pwr := { w with trip := false, alert := false } } }) ∧
     (w.trip = false → exec .inputRemovedAfterTrip s = .next s ∧ (w.input = false → exec .inputStartThreshold s = .next { s with hub := { s.hub with pwr := { w with input := true, rails := 0, good := false } } }) ∧
       (w.input = true → exec .inputStartThreshold s = .next s)))

/-- R376, R377, R378, R379, R380, R383, R320: power management. The cycle limit follows the law of R379 and CAPACT shows it; CAPFAIL is set by the hundredth sample in a row above the cap at the longest cycle. PM_CAP takes a value in range and not below the floor. Temperatures are reported and the alert asserted at its threshold. STANDBY is entered only
with nothing enabled, and left; each completion raises PWR. A mesh-weight window puts the weights of the partitions in effect. That
PM_CAP gives the lowest reason and that a STANDBY set during EXITING is taken up at STANDBY_DONE is the model's choice (log 53).

R376, R378: in a stopped island nothing runs: no instruction issues, and no event of a core, a switch, a steering unit, a roller, a synchronisation unit, an update station or a
reduction group changes anything. (From the start of ENTERING to the end of EXITING; the model's reading of when islands stop: log 68.) -/
def Obligations.PowerManagement : Prop :=
  (∀ (s : State) (fn : Fn) (v : Word) (mv : BitVec 17) (dw : BitVec 16) (x : Temps) (cl : ClIx),
     let rg := hubReg s.hub
     let st := rg 0x1004
     let raised := fun (t : State) (i : Nat) => bit (hubReg t.hub 0x1004) i = true ∧ (bit st i = false → bit (hubReg t.hub 0x10) 7 = true)
     let mem := fun (t : State) => t.cores = s.cores ∧ t.mcs = s.mcs ∧ t.lnks = s.lnks ∧ t.parts = s.parts
     let P := dw.toNat
     let C := fld (rg 0x1008) 11 0
     let L := fld (rg 0x1028) 10 0
     (s.hub.pwr.rails ≠ 0 → ∃ t, exec (.capControl mv dw) s = .next t ∧ mem t ∧ t.clusters = s.clusters ∧ (hubReg t.hub 0x1010).toNat = mv.toNat ∧ (hubReg t.hub 0x1014).toNat = P ∧
       (10 * C < P → (hubReg t.hub 0x1028).toNat = min (L + 10 * max 1 (100 * (P - 10 * C) / (10 * C))) 1600) ∧ (100 * P ≤ 980 * C → (hubReg t.hub 0x1028).toNat = max (L - 10) 950) ∧
       (980 * C < 100 * P → P ≤ 10 * C → (hubReg t.hub 0x1028).toNat = L) ∧ bit (hubReg t.hub 0x1004) 2 = decide (950 < (hubReg t.hub 0x1028).toNat) ∧
       (L = 1600 → 10 * C < P → s.hub.pwr.overs < 99 → t.hub.pwr.overs = s.hub.pwr.overs + 1 ∧ bit (hubReg t.hub 0x1004) 3 = bit st 3) ∧
       (L = 1600 → 10 * C < P → 99 ≤ s.hub.pwr.overs → t.hub.pwr.overs = 0 ∧ raised t 3) ∧ (L ≠ 1600 ∨ P ≤ 10 * C → t.hub.pwr.overs = 0 ∧ bit (hubReg t.hub 0x1004) 3 = bit st 3)) ∧
     (s.hub.pwr.rails = 0 → exec (.capControl mv dw) s = .next s) ∧
     (let c := fld v 11 0
      HubAdmits s fn →
      (c < 1000 ∨ 2600 < c → ∃ t, exec (.pmCap fn v) s = .next t ∧ HubRegs s t [0x1004] ∧ fld (hubReg t.hub 0x1004) 15 8 = 0x06) ∧
      (1000 ≤ c → c ≤ 2600 → c < fld (rg 0x100C) 11 0 → ∃ t, exec (.pmCap fn v) s = .next t ∧ HubRegs s t [0x1004] ∧ fld (hubReg t.hub 0x1004) 15 8 = 0x11) ∧
      (1000 ≤ c → c ≤ 2600 → fld (rg 0x100C) 11 0 ≤ c → ∃ t, exec (.pmCap fn v) s = .next t ∧ HubRegs s t [0x1008] ∧ (hubReg t.hub 0x1008).toNat = c) ∧
      (bit v 0 = true → bit v 16 = true → bit (rg 0x1000) 0 = false → standbyBusy s = true → ∃ t, exec (.standbyEnter fn v) s = .next t ∧ HubRegs s t [0x1004] ∧ fld (hubReg t.hub 0x1004) 15 8 = 0x0D ∧ pmState t = pmState s) ∧
      (bit v 0 = true → bit v 16 = true → bit (rg 0x1000) 0 = false → standbyBusy s = false → pmState s = 0 → ∃ t, exec (.standbyEnter fn v) s = .next t ∧ HubRegs s t [0x1000, 0x1004] ∧ pmState t = 1 ∧ bit (hubReg t.hub 0x1000) 0 = true) ∧
      (bit v 0 = false → bit v 16 = true → bit (rg 0x1000) 0 = true → pmState s = 2 → ∃ t, exec (.standbyExit fn v) s = .next t ∧ HubRegs s t [0x1000, 0x1004] ∧ pmState t = 3 ∧ bit (hubReg t.hub 0x1000) 0 = false) ∧
      (bit v 0 = false → bit v 16 = true → bit (rg 0x1000) 0 = true → pmState s = 1 → ∃ t, exec (.standbyExit fn v) s = .next t ∧ HubRegs s t [0x1000] ∧ bit (hubReg t.hub 0x1000) 0 = false)) ∧
     (pmState s = 1 → ∃ t, exec .standbyDone s = .next t ∧ pmState t = (if bit (rg 0x1000) 0 then 2 else 3) ∧ raised t 5 ∧ mem t ∧ t.clusters = s.clusters) ∧
     (pmState s = 3 → ∃ t, exec .standbyDone s = .next t ∧ pmState t = (if bit (rg 0x1000) 0 then 1 else 0) ∧ raised t 5 ∧ (hubReg t.hub 0x1028).toNat = 950 ∧ bit (hubReg t.hub 0x1004) 2 = false ∧ t.cores = s.cores ∧ t.parts = s.parts ∧
       (∀ c, (getCl t c).xlate = [] ∧ (getCl t c).staging = (getCl s c).staging) ∧ (∀ m, (getMc t m).stn.xlate = [] ∧ (getMc t m).frames = (getMc s m).frames)) ∧
     (pmState s = 0 ∨ pmState s = 2 → exec .standbyDone s = .next s) ∧
     (let rs := [x.c0, x.c1, x.c2, x.c3, x.h]
      let lim : Int := fld (rg 0x1020) 7 0
      let old := (BitVec.ofNat 8 (fld (rg 0x101C) 15 8)).toInt
      s.hub.pwr.rails ≠ 0 → (∀ u ∈ rs, u.toInt < 110) → ∃ t, exec (.temperatureSample x) s = .next t ∧ mem t ∧ t.clusters = s.clusters ∧ fld (hubReg t.hub 0x1018) 7 0 = x.c0.toNat ∧ fld (hubReg t.hub 0x1018) 15 8 = x.c1.toNat ∧ fld (hubReg t.hub 0x1018) 23 16 = x.c2.toNat ∧
        fld (hubReg t.hub 0x1018) 31 24 = x.c3.toNat ∧ fld (hubReg t.hub 0x101C) 7 0 = x.h.toNat ∧ (let peak := (BitVec.ofNat 8 (fld (hubReg t.hub 0x101C) 15 8)).toInt; old ≤ peak ∧ (∀ u ∈ rs, u.toInt ≤ peak) ∧ (peak = old ∨ ∃ u ∈ rs, peak = u.toInt)) ∧
        ((∃ u ∈ rs, lim ≤ u.toInt) → t.hub.pwr.alert = true ∧ (s.hub.pwr.alert = false → raised t 4)) ∧ ((∀ u ∈ rs, u.toInt + 5 ≤ lim) → t.hub.pwr.alert = false) ∧
        ((∀ u ∈ rs, u.toInt < lim) → (∃ u ∈ rs, lim < u.toInt + 5) → t.hub.pwr.alert = s.hub.pwr.alert)) ∧
     (pmActive s = true → ∃ t, exec (.meshWeightWindow cl) s = .next t ∧ (∀ p, p < 8 → tget (getCl t cl.val).weights p 0 = fld (partReg (getPart s p) 0x24) 7 0) ∧ { getCl t cl.val with weights := [] } = { getCl s cl.val with weights := [] } ∧
       (∀ d, d ≠ cl.val → getCl t d = getCl s d) ∧ { t with clusters := [] } = { s with clusters := [] })) ∧
  (∀ (s : State) (i : Instr) (c : CoreIx) (cl : ClIx) (m : McIx) (lp : LpIx) (u : SyncUnit) (id : RunId) (n : Fin 8) (ch : Fin 4) (j : Fin 64) (side : Side) (net : Net)
     (sl : Fin 32) (sc : Fin 16) (b : Bool) (ecc : Ecc) (p : PartIx), pmActive s = false →
     (woferOf i ≠ none → exec i s = .next s) ∧
     (i ∈ [.firingStart c, .retirement c n, .tokenArrival c n, .landingSlotFree c ch n j, .coreSectionToken c n, .contextSwitchDone c, .matrixQueueStart c b, .vectorQueueStart c b,
           .nanReport c, .nanAnswer c, .stepOverflowReport c, .syncResponse c id, .syncTimeout c id, .traceSample c] → exec i s = .next s) ∧
     (i ∈ [.switchTokenArrival cl side net sl, .switchForward cl net, .steeringPair cl sc, .sectionToken cl side sc, .switchDrainEnd cl, .rollerRequestTaken cl ch, .rollerTransferDone cl ch,
           .ringEntryComplete cl ch, .paramRead cl ch ecc, .meshWeightWindow cl] → exec i s = .next s) ∧
     (i ∈ [.syncOperation u, .syncCancel u, .gradientPacket m, .updateTile m ecc, .sinkToken lp ch n, .resultDelivery lp ch, .decision p m,
           .marker (.cluster cl), .marker (.mc m), .marker (.lnk lp)] → exec i s = .next s))

/-- R339, R340, R341, R342, R345: a fault of a core or of an SRAM row. With a usable spare the core comes back at zero, out of its station entries, and the row reads zero; the fault is logged, every partition's attestation log has its entry, and a loss report goes to the owner. Without one the fault is UNCOVERED: the core is out of service and its cluster is to molt; what
the row holds is open. No other core, row or memory loses anything. That a core out of service reads as zero and leaves its entries (log 56), which units a failed sub-channel poisons (log 57) and the order of the reports (log 58), are the model's choices.

R194, R195, R339, R340: sub-channels, and faults outside the covered classes. A sub-channel that fails is poisoned, every unit of a frame in use either among the poisoned units or under POISON in its page-table entry; it is retired if 1,024 frames are free and else waits with PENDING. A pending retirement takes effect once they are. An
uncovered fault is logged and marks the partitions; that of a lane takes its port to FAILED. -/
def Obligations.Faults : Prop :=
  (∀ (s : State) (c : CoreIx) (a : SramRow),
     let cl := c.val / 32
     let owner := coreOwner s c.val
     let others := fun (t : State) => (∀ d, d ≠ c.val → (getCore t d).sram = (getCore s d).sram ∧ (getCore t d).prog = (getCore s d).prog ∧ (∀ n, (bankOf (getCore t d) n).vals = (bankOf (getCore s d) n).vals)) ∧ t.mcs = s.mcs ∧ t.clusters = s.clusters ∧ t.lnks = s.lnks
     let zero := fun (t : State) => (getCore t c.val).sram = [] ∧ (getCore t c.val).prog = [] ∧ (getCore t c.val).banks = [] ∧ (getCore t c.val).regs = [] ∧ (getCore t c.val).ctxs = [] ∧ (getCore t c.val).stores = [] ∧ (getCore t c.val).firings = []
     let leaves := fun (t : State) => ∀ x ∈ (getCore s c.val).ctxs, ∀ r, x.2.stn = some r → bit (entWord (getPart t r.part) r.entry 0) 0 = false
     let pids := fun (o : Option Nat) => match o with | some p => 2 ^ p | none => 0
     let spare := fun (u : SramRow) => 0 < rowSpares s.hub u
     let rowMine := fun (d : Nat) => match a with | .data e _ | .prog e _ | .acc e _ => d = e.val | .staging _ _ => False
     let keeps := fun (t : State) => (∀ d, ¬ rowMine d → getCore t d = getCore s d) ∧ t.mcs = s.mcs ∧ t.lnks = s.lnks ∧
       (match a with
        | .data e r => t.clusters = s.clusters ∧ (∀ x, (x < 512 * r.val ∨ 512 * r.val + 512 ≤ x) → mread (getCore t e.val).sram x = mread (getCore s e.val).sram x) ∧ { getCore t e.val with sram := [] } = { getCore s e.val with sram := [] }
        | .prog e r => t.clusters = s.clusters ∧ (∀ x, (x < 64 * r.val ∨ 64 * r.val + 64 ≤ x) → tget (getCore t e.val).prog x 0 = tget (getCore s e.val).prog x 0) ∧ { getCore t e.val with prog := [] } = { getCore s e.val with prog := [] }
        | .acc e r => t.clusters = s.clusters ∧ (∀ n, n ≠ r.val / 8 → bankOf (getCore t e.val) n = bankOf (getCore s e.val) n) ∧ { getCore t e.val with banks := [] } = { getCore s e.val with banks := [] }
        | .staging e r => (∀ d, d ≠ e.val → getCl t d = getCl s d) ∧ (∀ x, (x < 512 * r.val ∨ 512 * r.val + 512 ≤ x) → mread (getCl t e.val).staging x = mread (getCl s e.val).staging x) ∧ { getCl t e.val with staging := [] } = { getCl s e.val with staging := [] })
     (0 < coreSpares s.hub cl → ∃ t, exec (.coreFault c) s = .next t ∧ zero t ∧ others t ∧ leaves t ∧ (getCore t c.val).dead = false ∧ coreSpares t.hub cl + 1 = coreSpares s.hub cl ∧
       HubFaulted s t 2 (placeCore c.val) (pids owner) true false false ∧ Remapped s t ∧ (∀ p, owner = some p → PartFaulted s t p 2 (placeCore c.val) false ∧ bit t.hub.lossDue p = true) ∧ FaultUnit.core c ∉ t.hub.molts) ∧
     (∀ i, (i = .uncoveredFault (.core c) ∨ i = .coreFault c ∧ coreSpares s.hub cl = 0) → ∃ t, exec i s = .next t ∧ zero t ∧ others t ∧ leaves t ∧ (getCore t c.val).dead = true ∧
       HubFaulted s t 2 (placeCore c.val) (pids owner) true true false ∧ (∀ p, owner = some p → PartFaulted s t p 2 (placeCore c.val) true ∧ bit t.hub.lossDue p = true) ∧ (∃ u, u = FaultUnit.cluster ⟨cl % 160, Nat.mod_lt _ (by decide)⟩ ∧ u ∈ t.hub.molts)) ∧
     (spare a → ∃ t, exec (.sramFault a) s = .next t ∧ keeps t ∧ rowSpares t.hub a + 1 = rowSpares s.hub a ∧
       (match a with
        | .data e r => ∀ x, 512 * r.val ≤ x → x < 512 * r.val + 512 → mread (getCore t e.val).sram x = Mem.blank
        | .prog e r => ∀ x, 64 * r.val ≤ x → x < 64 * r.val + 64 → tget (getCore t e.val).prog x 0 = 0
        | .acc e r => ∀ x, 128 * (r.val % 8) ≤ x → x < 128 * (r.val % 8) + 128 → (bankOf (getCore t e.val) (r.val / 8)).vals.getD x 0 = 0
        | .staging e r => ∀ x, 512 * r.val ≤ x → x < 512 * r.val + 512 → mread (getCl t e.val).staging x = Mem.blank) ∧
       HubFaulted s t 3 (rowPlace a) (pids (rowOwner s a)) true false false ∧ Remapped s t ∧ (∀ p, rowOwner s a = some p → PartFaulted s t p 3 (rowPlace a) false ∧ bit t.hub.lossDue p = true)) ∧
     (∀ i, (i = .uncoveredFault (.row a) ∨ i = .sramFault a ∧ ¬ spare a) → ∃ t, exec i s = .next t ∧ keeps t ∧ HubFaulted s t 3 (rowPlace a) (pids (rowOwner s a)) true true false ∧
       (∀ p, rowOwner s a = some p → PartFaulted s t p 3 (rowPlace a) true ∧ bit t.hub.lossDue p = true))) ∧
  (∀ (s : State) (m : McIx) (j : Fin 16) (l : LpIx) (tx : Bool) (n : Fin 4) (cl : ClIx) (pids : BitVec 8),
     let k := getMc s m.val
     let w := mcReg k 0x200
     let fresh := bit w j.val = false ∧ bit k.failed j.val = false
     let poisoned := fun (t : State) => ∀ u ∈ subUnits k j.val, u ∈ (getMc t m.val).poison ∨ ∀ p, p < 8 → ∀ e ∈ (getPart t p).pt2, ptValid e.2 = true → ptPkg e.2 = m.val → ptFrame e.2 = u.1 → ptPoison e.2 = true
     let reports := fun (t : State) => HubFaulted s t 5 (subUnit m.val j.val) (pidMask (packageUsers s m.val)) true false false ∧ ∀ p ∈ packageUsers s m.val, bit t.hub.lossDue p = true ∧ PartFaulted s t p 5 (subUnit m.val j.val) false
     let rest := fun (t : State) => t.cores = s.cores ∧ (getMc t m.val).frames = k.frames ∧ (getMc t m.val).used = k.used ∧ ∀ d, d ≠ m.val → (getMc t d).frames = (getMc s d).frames ∧ (getMc t d).poison = (getMc s d).poison ∧ (getMc t d).regs = (getMc s d).regs
     let pending : Fin 16 := ⟨fld w 19 16 % 16, Nat.mod_lt _ (by decide)⟩
     (fresh → 1024 ≤ freeCount k → ∃ t, exec (.subchannelFault m j) s = .next t ∧ poisoned t ∧ reports t ∧ rest t ∧ bit (mcReg (getMc t m.val) 0x200) j.val = true ∧ bit (getMc t m.val).failed j.val = false ∧ Remapped s t ∧
       (∀ f ∈ (getMc t m.val).reloc, f ∈ k.reloc ∨ (f < 16379 ∧ f ∉ k.used))) ∧
     (fresh → freeCount k < 1024 → ∃ t, exec (.subchannelFault m j) s = .next t ∧ poisoned t ∧ reports t ∧ rest t ∧ bit (mcReg (getMc t m.val) 0x200) j.val = false ∧ bit (getMc t m.val).failed j.val = true ∧ bit (mcReg (getMc t m.val) 0x200) 20 = true ∧
       (bit w 20 = false → fld (mcReg (getMc t m.val) 0x200) 19 16 = j.val)) ∧
     (¬ fresh → exec (.subchannelFault m j) s = .next s) ∧
     (bit w 20 = true → 1024 ≤ freeCount k → (bit k.failed pending.val = true ∨ mcInFlight s m.val = false) → ∃ t, exec (.subchannelRetirement m) s = .next t ∧ bit (mcReg (getMc t m.val) 0x200) pending.val = true ∧ bit (getMc t m.val).failed pending.val = false ∧ Remapped s t ∧ rest t ∧
       (bit k.failed pending.val = false → MoltDone s t (.sub m pending))) ∧
     (bit w 20 = false ∨ freeCount k < 1024 ∨ (bit k.failed pending.val = false ∧ mcInFlight s m.val = true) → exec (.subchannelRetirement m) s = .next s) ∧
     (∃ t, exec (.uncoveredFault (.sub m j)) s = .next t ∧ HubFaulted s t 5 (subUnit m.val j.val) (pidMask (packageUsers s m.val)) true true false ∧ (bit w j.val = false → bit (getMc t m.val).failed j.val = true) ∧ t.cores = s.cores ∧
       ∀ p ∈ packageUsers s m.val, PartFaulted s t p 5 (subUnit m.val j.val) true ∧ bit t.hub.lossDue p = true) ∧
     (∃ t, exec (.uncoveredFault (.lane l tx n)) s = .next t ∧ HubFaulted s t 4 (laneUnit l.val tx n.val) 0 false true false ∧ (∀ p, portOwner s l.val = some p → PartFaulted s t p 4 (laneUnit l.val tx n.val) true) ∧
       (lst (getLnk s l.val) ≠ 0 → lst (getLnk t l.val) = 8 ∧ fld (lnkReg (getLnk t l.val) 0x8) 27 24 = 6) ∧ (lst (getLnk s l.val) = 0 → t.lnks = s.lnks) ∧
       t.cores = s.cores ∧ t.mcs = s.mcs) ∧
     (∃ t, exec (.uncoveredFault (.cluster cl)) s = .next t ∧ HubFaulted s t 1 (placeCl cl.val) 0 false true false ∧ (∀ p ∈ clusterOwners s cl.val, PartFaulted s t p 1 (placeCl cl.val) true) ∧ t.cores = s.cores ∧ t.clusters = s.clusters ∧ t.mcs = s.mcs) ∧
     (∃ t, exec (.uncoveredFault (.other pids)) s = .next t ∧ HubFaulted s t 0 0 0 false true false ∧ (∀ p, p < 8 → bit pids p = true → PartFaulted s t p 0 0 true) ∧ (∀ p, p < 8 → bit pids p = false → getPart t p = getPart s p) ∧ t.cores = s.cores ∧ t.clusters = s.clusters ∧ t.mcs = s.mcs))

/-- R337, R341, R343, R344, R345: worsening units, molts, loss reports, spare tests. A worsening unit waits; at its boundary and with a spare its molt completes and nothing that it holds is lost: a cluster then stands on another physical one with its cores in service. A loss report sets LOSS and aborts the open step. A spare that fails its test is no longer usable. That the lowest usable spare cluster is taken (logs 38, 123), and what the boundary of a controller is (log 122), are the model's choices. -/
def Obligations.MoltsAndSpares : Prop :=
  ∀ (s : State) (u : FaultUnit) (p : PartIx) (sp : Spare),
    let waits := fun (t : State) (v : FaultUnit) => v ∈ t.hub.molts ∧ (∀ x, x ≠ v → (x ∈ t.hub.molts ↔ x ∈ s.hub.molts)) ∧ (v ∉ s.hub.molts → fld (hubReg t.hub 0x30) 7 0 = (s.hub.molts.length + 1) % 256)
    let whole := fun (t : State) => (∀ c, (getCore t c).sram = (getCore s c).sram ∧ (getCore t c).prog = (getCore s c).prog ∧ (getCore t c).banks = (getCore s c).banks ∧ (getCore t c).ctxs = (getCore s c).ctxs ∧ (getCore t c).firings = (getCore s c).firings) ∧
      t.clusters = s.clusters ∧ t.mcs = s.mcs
    ((match u with | .row _ | .cluster _ | .lane .. => True | _ => False) → ∃ t, exec (.moltWorsening u) s = .next t ∧ waits t u ∧ whole t ∧ t.parts = s.parts) ∧
    (∀ c, u = .core c → (getCore s c.val).dead = false → ∃ t, exec (.moltWorsening u) s = .next t ∧ whole t ∧ (0 < coreSpares s.hub (c.val / 32) → waits t u) ∧
      (coreSpares s.hub (c.val / 32) = 0 → waits t (.cluster ⟨c.val / 32 % 160, Nat.mod_lt _ (by decide)⟩))) ∧
    (∀ m j, u = .sub m j → bit (mcReg (getMc s m.val) 0x200) j.val = false → bit (getMc s m.val).failed j.val = false → ∃ t, exec (.moltWorsening u) s = .next t ∧ waits t u ∧ t.cores = s.cores ∧ (freeCount (getMc s m.val) < 1024 → bit (mcReg (getMc t m.val) 0x200) 20 = true)) ∧
    (u ∉ s.hub.molts → exec (.molt u) s = .next s) ∧
    (∀ a, u = .row a → u ∈ s.hub.molts → (atBoundary s (rowCluster a) = false → exec (.molt u) s = .next s) ∧
      (atBoundary s (rowCluster a) = true → 0 < rowSpares s.hub a → ∃ t, exec (.molt u) s = .next t ∧ MoltDone s t u ∧ whole t ∧ Remapped s t ∧ rowSpares t.hub a + 1 = rowSpares s.hub a)) ∧
    (∀ c, u = .core c → u ∈ s.hub.molts → (atBoundary s (c.val / 32) = false → 0 < coreSpares s.hub (c.val / 32) → exec (.molt u) s = .next s) ∧
      (coreSpares s.hub (c.val / 32) = 0 → ∃ t, exec (.molt u) s = .next t ∧ u ∉ t.hub.molts ∧ FaultUnit.cluster ⟨c.val / 32 % 160, Nat.mod_lt _ (by decide)⟩ ∈ t.hub.molts ∧ whole t) ∧
      (atBoundary s (c.val / 32) = true → 0 < coreSpares s.hub (c.val / 32) → ∃ t, exec (.molt u) s = .next t ∧ MoltDone s t u ∧ whole t ∧ Remapped s t ∧ coreSpares t.hub (c.val / 32) + 1 = coreSpares s.hub (c.val / 32))) ∧
    (∀ (cl : ClIx) n ns, u = .cluster cl → u ∈ s.hub.molts → spareOf s.hub.rot (cl.val / 40) = n :: ns → atBoundary s cl.val = true → ∃ t, exec (.molt u) s = .next t ∧ MoltDone s t u ∧ Remapped s t ∧ t.clusters = s.clusters ∧ t.mcs = s.mcs ∧
      tget t.hub.rot.phys cl.val 0 = n ∧ (∀ d, d ≠ cl.val → tget t.hub.rot.phys d 0 = tget s.hub.rot.phys d 0) ∧ (∀ i, i < 32 → (getCore t (cl.val * 32 + i)).dead = false) ∧
      (∀ c, (getCore s c).dead = false → (getCore t c).sram = (getCore s c).sram ∧ (getCore t c).ctxs = (getCore s c).ctxs)) ∧
    (∀ (l : LpIx) n, u = .lane l true n → u ∈ s.hub.molts → lst (getLnk s l.val) = 6 → txSpared (getLnk s l.val) = false → bit (getLnk s l.val).spareBad 1 = false → ∃ t, exec (.molt u) s = .next t ∧ MoltDone s t u ∧ Remapped s t ∧ whole t ∧ txSpared (getLnk t l.val) = true ∧ (getLnk t l.val).txLane = some n.val) ∧
    (∀ (l : LpIx) n, u = .lane l false n → u ∈ s.hub.molts → lst (getLnk s l.val) = 6 → rxSpared (getLnk s l.val) = false → (getLnk s l.val).fault = none → bit (getLnk s l.val).spareBad 0 = false → (getLnk s l.val).keys.rekey = false →
      ∃ t, exec (.molt u) s = .next t ∧ t.hub = s.hub ∧ whole t ∧ (getLnk t l.val).fault = some n.val ∧ (getLnk t l.val).txq = (getLnk s l.val).txq ++ [ctrlItem (.laneFault n.val)]) ∧
    (∀ m j, u = .sub m j → u ∈ s.hub.molts → (1024 ≤ freeCount (getMc s m.val) → mcInFlight s m.val = true → exec (.molt u) s = .next s) ∧
      (freeCount (getMc s m.val) < 1024 → ∃ t, exec (.molt u) s = .next t ∧ u ∈ t.hub.molts ∧ bit (mcReg (getMc t m.val) 0x200) 20 = true) ∧
      (1024 ≤ freeCount (getMc s m.val) → mcInFlight s m.val = false → ∃ t, exec (.molt u) s = .next t ∧ MoltDone s t u ∧ Remapped s t ∧ t.cores = s.cores ∧ bit (mcReg (getMc t m.val) 0x200) j.val = true ∧ (getMc t m.val).frames = (getMc s m.val).frames ∧
      (getMc t m.val).poison = (getMc s m.val).poison)) ∧
    (bit s.hub.lossDue p.val = false → exec (.lossReport p) s = .next s) ∧
    (bit s.hub.lossDue p.val = true → ∃ t, exec (.lossReport p) s = .next t ∧ bit t.hub.lossDue p.val = false ∧ bit (partReg (getPart t p.val) 0x1A0) 0 = true ∧ t.cores = s.cores ∧ (∀ d, d ≠ p.val → getPart t d = getPart s d) ∧
      (bit (partReg (getPart s p.val) 0x114) 16 = true → bit (partReg (getPart t p.val) 0x114) 16 = false ∧ fld (partReg (getPart t p.val) 0x114) 15 0 = fld (partReg (getPart s p.val) 0x114) 15 0 ∧ ∀ m, m < 16 → stnOn (getMc s m) = true → stnPid (getMc s m) = p.val →
        (getMc t m).stn.openStep = none ∧ (getMc t m).stn.tiles = []) ∧
      (bit (partReg (getPart s p.val) 0x114) 16 = false → t.mcs = s.mcs ∧ ∀ o, o ≠ 0x1A0 → partReg (getPart t p.val) o = partReg (getPart s p.val) o)) ∧
    (exec (.spareTest sp true) s = .next s) ∧
    (∀ d n, sp = .cluster d n → n.val ∈ spareOf s.hub.rot d.val → ∃ t, exec (.spareTest sp false) s = .next t ∧ n.val ∉ spareOf t.hub.rot d.val ∧ (∀ x, x ≠ n.val → (x ∈ spareOf t.hub.rot d.val ↔ x ∈ spareOf s.hub.rot d.val)) ∧ t.hub.rot.phys = s.hub.rot.phys ∧ whole t) ∧
    (∀ d n j, sp = .core d n j → let pcl := d.val * 64 + n.val
      spareCore s.hub.rot pcl j.val = true → ∃ t, exec (.spareTest sp false) s = .next t ∧ spareCore t.hub.rot pcl j.val = false ∧ t.hub.rot.phys = s.hub.rot.phys ∧ t.hub.rot.coreMap = s.hub.rot.coreMap ∧
        (∀ cl, cl < 160 → (physCl s.hub.rot cl = pcl → coreSpares t.hub cl + 1 = coreSpares s.hub cl) ∧ (physCl s.hub.rot cl ≠ pcl → coreSpares t.hub cl = coreSpares s.hub cl)) ∧ whole t) ∧
    (∀ a, sp = .row a → 0 < arraySpare s.hub (siteNo a) → ∃ t, exec (.spareTest sp false) s = .next t ∧ arraySpare t.hub (siteNo a) + 1 = arraySpare s.hub (siteNo a) ∧ whole t) ∧
    (∀ l tx, sp = .lane l tx → bit (getLnk s l.val).spareBad (b2n tx) = false → (if tx then txSpared (getLnk s l.val) else rxSpared (getLnk s l.val)) = false → ∃ t, exec (.spareTest sp false) s = .next t ∧
      bit (getLnk t l.val).spareBad (b2n tx) = true ∧ fld (hubReg t.hub 0x2C) 18 13 = fld (hubReg s.hub 0x2C) 18 13 - 1 ∧ whole t)

/-- R22, R190, R198, R255: the accesses of host-class cores. One that no partition holds sends nothing, and in standby nothing reaches a stopped island. A load returns the bytes of its tier and changes no memory; a refused one returns none. A store stands in the hub cache, behind those before it, and a sync operation leaves only once the stores that its core issued before it stand in their
tier. Each access counts as an instruction that retires (R397; log 138). When a store is written back (log 21), and that nothing is sent while power management is not ACTIVE (logs 67, 68), is the model's choice. -/
def Obligations.HostClassCores : Prop :=
  ∀ (s : State) (h : Fin 16) (a : HccAccess) (p : Nat) (sp : Fin 4) (cl : ClIx) (x : BitVec 48) (n : Nat) (bs : List Byte) (o : Fin 5) (name : Word) (cond : BitVec 3) (arg : Word) (ob : ObjRef) (ecc : Ecc),
    let w : Who := { pid := p, cl := cl.val, stn := false }
    let mem := fun (t : State) => t.cores = s.cores ∧ t.mcs = s.mcs ∧ t.lnks = s.lnks ∧ t.parts = s.parts ∧ ∀ c, (getCl t c).staging = (getCl s c).staging
    let clean := fun (ws : List (Nat × List Byte)) => s.hub.hccDirty.all (fun d => !(d.2.any (dirtyHit s d.1 w sp.val ws))) = true
    let sends := fun (t : State) => ∃ q, q.op = syncOps o ∧ q.obj = ob ∧ q.arg = arg ∧ q.cond = cond ∧ q.pid = p ∧ q.src = .hcc h.val ∧ t.mesh = s.mesh ++ [{ pid := p, src := .hub (16 + h.val), dst := objNode ob, tid := q.tid, body := .sync q }]
    let retired := fun (t : State) => hubReg t.hub (0x301040 + 4 * h.val) = hubReg s.hub (0x301040 + 4 * h.val) + 1
    (hccOwner s h.val = none → exec (.hostClassCoreAccess h a) s = .next s) ∧
    (pmState s ≠ 0 → exec (.hostClassCoreAccess h a) s = .next s) ∧
    (hccOwner s h.val = some p → pmState s = 0 →
      (∀ b, (sp = 1 ∨ sp = 2) → clean [(x.toNat, List.replicate n 0)] → tierRead s w sp.val x.toNat n = .ok b →
        ∃ t, exec (.hostClassCoreAccess h (.load sp cl x n .clean)) s = .next t ∧ tfind t.hub.hccLoad h.val = some b ∧ retired t ∧ mem t ∧ t.hub.hccDirty = s.hub.hccDirty) ∧
      (∀ f, (sp = 1 ∨ sp = 2) → clean [(x.toNat, List.replicate n 0)] → tierRead s w sp.val x.toNat n = .error f → f.code = E_REFUSED →
        ∃ t, exec (.hostClassCoreAccess h (.load sp cl x n .clean)) s = .next t ∧ tfind t.hub.hccLoad h.val = none ∧ retired t ∧ t.cores = s.cores ∧ t.parts = s.parts ∧ ∀ c, (getCl t c).staging = (getCl s c).staging) ∧
      ((sp = 1 ∨ sp = 2) → clean [(x.toNat, bs)] →
        (dirtyLines { s with hub := { s.hub with hccDirty := tset s.hub.hccDirty h.val (tget s.hub.hccDirty h.val [] ++ [.store sp cl x bs]) } }).length ≤ cacheLines → ∃ t, exec (.hostClassCoreAccess h (.store sp cl x bs)) s = .next t ∧ tget t.hub.hccDirty h.val [] = tget s.hub.hccDirty h.val [] ++ [.store sp cl x bs] ∧ retired t ∧ mem t) ∧
      (sp = 0 ∨ sp = 3 → ∀ i ∈ [HccAccess.load sp cl x n ecc, .store sp cl x bs], ∃ t, exec (.hostClassCoreAccess h i) s = .next t ∧ HubRegs s t [0x301040 + 4 * h.val] ∧ retired t) ∧
      (objOf name = some ob → tget s.hub.hccDirty h.val [] = [] → ∃ t, exec (.hostClassCoreAccess h (.sync o name cond arg)) s = .next t ∧ sends t ∧ retired t ∧ mem t) ∧
      (objOf name = some ob → tget s.hub.hccDirty h.val [] = [.store 1 cl x bs] → writeFail s w 1 [(x.toNat, bs)] = none → ∃ t, exec (.hostClassCoreAccess h (.sync o name cond arg)) s = .next t ∧ sends t ∧
        tget t.hub.hccDirty h.val [] = [] ∧ (∀ i, i < bs.length → some (mread (getCl t cl.val).staging (x.toNat + i)) = bs[i]?) ∧
        (∀ y, (y < x.toNat ∨ x.toNat + bs.length ≤ y) → mread (getCl t cl.val).staging y = mread (getCl s cl.val).staging y) ∧ t.cores = s.cores ∧ t.mcs = s.mcs))

/-- Every step keeps every memory in its canonical form: addresses strictly rising, and no entry that an unlisted address would read as. Together with the clause of ResetValues that reset has it, equal memories are equal data in every state that a run reaches. -/
def Obligations.MemoryStaysCanonical : Prop :=
  ∀ s t : State, MemOk s → step s = .next t → MemOk t

/-- A step takes the command at the front of the queue and no other, and none joins the queue: commands come from outside only, and a reset or a loss of power leaves those that wait (the model's choice, log 39). -/
def Obligations.OneCommandPerStep : Prop :=
  ∀ s t : State, step s = .next t → t.pending = s.pending.tail

/-- R200, R201, R202, R203, R204: a container decodes to the tile that it was made of, for every format and shape and every pattern of elements, and never takes more than its header beyond the bytes of the tile. -/
def Obligations.ContainerRoundTrip : Prop :=
  ∀ (f32 : Bool) (rows cols : Nat) (els : List Word), 1 ≤ rows → rows ≤ 32 → 1 ≤ cols → cols ≤ 32 → els.length = rows * cols → (f32 = false → ∀ w ∈ els, w.toNat < 65536) →
    let c := encodeTile f32 rows cols els
    c.length ≤ 64 + rows * cols * elSize f32 ∧ decodeTile f32 rows cols (c.take 64) (c.drop 64) = .ok els

/-- R313, R318, R326, R332: rules of the whole machine, over every command. What a partition has been granted changes only by PART_CREATE, PART_GRANT, PART_REVOKE and the end of its pass, or with the loss of everything; while it is SEALED the first three leave it. MINSVN never decreases, and only FW_COMMIT raises it. -/
def Obligations.GrantsAndMinsvn : Prop :=
  ∀ (c : Instr) (s t : State), exec c s = .next t →
    (∀ p, (getPart t p).grants ≠ (getPart s p).grants →
      (∃ b, (c = .partCreate b ∨ c = .partGrant b ∨ c = .partRevoke b) ∧ partState s p ≠ SEALED) ∨ (∃ q, c = .fixerPassEnd q ∧ q.val = p) ∨
        c = .perstNAssert ∨ c = .inputStopThreshold ∨ (∃ k, c = .railOutOfRegulation k) ∨ (∃ x, c = .temperatureSample x)) ∧
    s.hub.rot.minsvn.toNat ≤ t.hub.rot.minsvn.toNat ∧ (t.hub.rot.minsvn ≠ s.hub.rot.minsvn → ∃ b, c = .fwCommit b)
end

