-- ==== Sys2Proof/Laws/Table.lean ====
section
/-! SUPPORT. Tables (what a read gives after a write, after a removal) and bit fields. -/
namespace Sys2Proof

variable {α : Type}

@[simp] theorem tget_tset_self (t : Tbl α) (k : Nat) (v d : α) : tget (tset t k v) k d = v := by
  induction t with
  | nil => simp [tset, tget]
  | cons x r ih =>
    obtain ⟨j, u⟩ := x
    simp only [tset]
    split
    · simp [tget]
    · split
      · simp [tget]
      · simp [tget, ih, *]

theorem tget_tset_ne (t : Tbl α) {k j : Nat} (v d : α) (h : k ≠ j) : tget (tset t k v) j d = tget t j d := by
  induction t with
  | nil => simp [tset, tget, h]
  | cons x r ih =>
    obtain ⟨i, u⟩ := x
    simp only [tset]
    split
    · subst_vars; simp [tget, h]
    · split
      · simp [tget, h]
      · simp [tget, ih]

theorem tget_tset (t : Tbl α) (k j : Nat) (v d : α) : tget (tset t k v) j d = if k = j then v else tget t j d := by
  by_cases h : k = j
  · subst h; simp
  · simp [tget_tset_ne t v d h, h]

@[simp] theorem tfind_tset_self (t : Tbl α) (k : Nat) (v : α) : tfind (tset t k v) k = some v := by
  induction t with
  | nil => simp [tset, tfind]
  | cons x r ih =>
    obtain ⟨j, u⟩ := x
    simp only [tset]
    split
    · simp [tfind]
    · split
      · simp [tfind]
      · simp [tfind, ih, *]

theorem tfind_tset_ne (t : Tbl α) {k j : Nat} (v : α) (h : k ≠ j) : tfind (tset t k v) j = tfind t j := by
  induction t with
  | nil => simp [tset, tfind, h]
  | cons x r ih =>
    obtain ⟨i, u⟩ := x
    simp only [tset]
    split
    · subst_vars; simp [tfind, h]
    · split
      · simp [tfind, h]
      · simp [tfind, ih]

theorem tget_eq_tfind (t : Tbl α) (k : Nat) (d : α) : tget t k d = (tfind t k).getD d := by
  induction t with
  | nil => rfl
  | cons x r ih =>
    obtain ⟨j, u⟩ := x
    by_cases h : j = k <;> simp [tget, tfind, h, ih]

@[simp] theorem tfind_tdel_self (t : Tbl α) (k : Nat) : tfind (tdel t k) k = none := by
  induction t with
  | nil => rfl
  | cons x r ih =>
    obtain ⟨j, u⟩ := x
    by_cases h : j = k
    · simpa [tdel, h] using ih
    · simpa [tdel, h, tfind] using ih

theorem tfind_tdel_ne (t : Tbl α) {k j : Nat} (h : k ≠ j) : tfind (tdel t k) j = tfind t j := by
  induction t with
  | nil => rfl
  | cons x r ih =>
    obtain ⟨i, u⟩ := x
    by_cases hi : i = k
    · subst hi; simpa [tdel, tfind, h] using ih
    · by_cases hj : i = j
      · simp [tdel, tfind, hi, hj, Ne.symm h]
      · simpa [tdel, tfind, hi, hj] using ih

/-- Every entry of a table after a write is the written one or was there. -/
theorem mem_tset {t : Tbl α} {k : Nat} {v : α} {e : Nat × α} (h : e ∈ tset t k v) : e = (k, v) ∨ e ∈ t := by
  induction t with
  | nil => simpa [tset] using h
  | cons x r ih =>
    obtain ⟨j, u⟩ := x
    simp only [tset] at h
    split at h
    · rcases List.mem_cons.1 h with h | h
      · exact .inl h
      · exact .inr (List.mem_cons_of_mem _ h)
    · split at h
      · rcases List.mem_cons.1 h with h | h
        · exact .inl h
        · exact .inr h
      · rcases List.mem_cons.1 h with h | h
        · exact .inr (h ▸ List.mem_cons_self ..)
        · rcases ih h with h | h
          · exact .inl h
          · exact .inr (List.mem_cons_of_mem _ h)

/-- What a read of a table gives is the default or one of its values. -/
theorem tget_mem (t : Tbl α) (k : Nat) (d : α) : tget t k d = d ∨ ∃ e ∈ t, e.2 = tget t k d := by
  induction t with
  | nil => exact .inl rfl
  | cons x r ih =>
    obtain ⟨j, u⟩ := x
    by_cases h : j = k
    · exact .inr ⟨(j, u), List.mem_cons_self .., by simp [tget, h]⟩
    · rcases ih with ih | ⟨e, he, hv⟩
      · exact .inl (by simp [tget, h, ih])
      · exact .inr ⟨e, List.mem_cons_of_mem _ he, by simp [tget, h, hv]⟩

theorem mem_tdel {t : Tbl α} {k : Nat} {e : Nat × α} (h : e ∈ tdel t k) : e ∈ t := List.mem_of_mem_filter h

/-! ### Fields of a word -/
/-- A bit of a word with a field replaced. -/
theorem bit_setFld {n : Nat} (w : BitVec n) (hi lo v j : Nat) :
    bit (setFld w hi lo v) j = (decide (j < n) && (if lo ≤ j ∧ j < hi + 1 then v.testBit (j - lo) else bit w j)) := by
  unfold bit setFld
  simp only [BitVec.getLsbD_or, BitVec.getLsbD_and, BitVec.getLsbD_not, BitVec.getLsbD_ofNat, Nat.testBit_shiftLeft,
    Nat.testBit_two_pow_sub_one, Nat.testBit_mod_two_pow, ge_iff_le]
  by_cases hj : j < n
  · by_cases hl : lo ≤ j
    · by_cases hh : j < hi + 1
      · have : j - lo < hi + 1 - lo := by omega
        simp only [hj, hl, hh, this, decide_true, Bool.true_and, Bool.not_true, Bool.and_false, Bool.false_or, and_self, if_true]
      · have : ¬ j - lo < hi + 1 - lo := by omega
        simp only [hj, hl, hh, this, decide_true, decide_false, Bool.true_and, Bool.false_and, Bool.not_false, Bool.and_true, Bool.or_false, and_false, if_false]
    · simp only [hj, hl, decide_true, decide_false, Bool.true_and, Bool.false_and, Bool.not_false, Bool.and_true, Bool.or_false, false_and, if_false]
  · simp [BitVec.getLsbD_of_ge _ _ (Nat.le_of_not_lt hj), hj]

@[simp] theorem bit_setBit_self {n : Nat} (w : BitVec n) (i : Nat) (b : Bool) (h : i < n) : bit (setBit w i b) i = b := by
  unfold setBit; rw [bit_setFld]; cases b <;> simp [h]
theorem bit_setBit_ne {n : Nat} (w : BitVec n) (i j : Nat) (b : Bool) (h : i ≠ j) : bit (setBit w i b) j = bit w j := by
  unfold setBit; rw [bit_setFld]
  by_cases hj : j < n
  · rw [if_neg (by omega)]; simp [hj]
  · simp [bit, BitVec.getLsbD_of_ge _ _ (Nat.le_of_not_lt hj), hj]

theorem testBit_fld {n : Nat} (w : BitVec n) (hi lo j : Nat) : (fld w hi lo).testBit j = (decide (j < hi + 1 - lo) && bit w (lo + j)) := by
  unfold fld bit
  rw [Nat.testBit_mod_two_pow, Nat.testBit_shiftRight, BitVec.testBit_toNat]
/-- A field after it has been replaced. -/
@[simp] theorem fld_setFld_self {n : Nat} (w : BitVec n) (hi lo v : Nat) (h : hi < n) : fld (setFld w hi lo v) hi lo = v % 2 ^ (hi + 1 - lo) := by
  apply Nat.eq_of_testBit_eq
  intro j
  rw [testBit_fld, bit_setFld, Nat.testBit_mod_two_pow]
  by_cases hj : j < hi + 1 - lo
  · have h1 : lo + j < n := by omega
    have h2 : lo ≤ lo + j ∧ lo + j < hi + 1 := by omega
    simp [hj, h1, h2]
  · simp [hj]
/-- A field that does not meet the one replaced. -/
theorem fld_setFld_ne {n : Nat} (w : BitVec n) (hi lo v hi2 lo2 : Nat) (h : hi < lo2 ∨ hi2 < lo) : fld (setFld w hi lo v) hi2 lo2 = fld w hi2 lo2 := by
  apply Nat.eq_of_testBit_eq
  intro j
  rw [testBit_fld, testBit_fld, bit_setFld]
  by_cases hj : j < hi2 + 1 - lo2
  · have h2 : ¬ (lo ≤ lo2 + j ∧ lo2 + j < hi + 1) := by omega
    by_cases hn : lo2 + j < n
    · rw [if_neg h2]; simp [hn]
    · simp [h2, hn, bit, BitVec.getLsbD_of_ge _ _ (Nat.le_of_not_lt hn)]
  · simp [hj]

end Sys2Proof
end

