-- ==== Sys2Proof/Laws/State.lean ====
section
/-! SUPPORT. What each update of the state leaves and sets: one lemma per field, true by computation, so that no later proof unfolds
a record update. -/
namespace Sys2Proof.Machine

/-! ### setCore -/
@[simp] theorem setCore_clusters (s : State) (n : Nat) (k : Core) : (setCore s n k).clusters = s.clusters := rfl
@[simp] theorem setCore_mcs (s : State) (n : Nat) (k : Core) : (setCore s n k).mcs = s.mcs := rfl
@[simp] theorem setCore_lnks (s : State) (n : Nat) (k : Core) : (setCore s n k).lnks = s.lnks := rfl
@[simp] theorem setCore_parts (s : State) (n : Nat) (k : Core) : (setCore s n k).parts = s.parts := rfl
@[simp] theorem setCore_hub (s : State) (n : Nat) (k : Core) : (setCore s n k).hub = s.hub := rfl
@[simp] theorem setCore_mesh (s : State) (n : Nat) (k : Core) : (setCore s n k).mesh = s.mesh := rfl
@[simp] theorem setCore_outbox (s : State) (n : Nat) (k : Core) : (setCore s n k).outbox = s.outbox := rfl
@[simp] theorem setCore_free (s : State) (n : Nat) (k : Core) : (setCore s n k).free = s.free := rfl
@[simp] theorem setCore_pending (s : State) (n : Nat) (k : Core) : (setCore s n k).pending = s.pending := rfl
@[simp] theorem setCore_cores (s : State) (n : Nat) (k : Core) : (setCore s n k).cores = tset s.cores n k := rfl
@[simp] theorem getCore_setCore (s : State) (n : Nat) (k : Core) : getCore (setCore s n k) n = k := tget_tset_self _ _ _ _
theorem getCore_setCore_ne (s : State) {n m : Nat} (k : Core) (h : n ≠ m) : getCore (setCore s n k) m = getCore s m := tget_tset_ne _ _ _ h
@[simp] theorem getCl_setCore (s : State) (n : Nat) (k : Core) (m : Nat) : getCl (setCore s n k) m = getCl s m := rfl
@[simp] theorem getMc_setCore (s : State) (n : Nat) (k : Core) (m : Nat) : getMc (setCore s n k) m = getMc s m := rfl
@[simp] theorem getLnk_setCore (s : State) (n : Nat) (k : Core) (m : Nat) : getLnk (setCore s n k) m = getLnk s m := rfl
@[simp] theorem getPart_setCore (s : State) (n : Nat) (k : Core) (m : Nat) : getPart (setCore s n k) m = getPart s m := rfl
/-! ### setCl -/
@[simp] theorem setCl_cores (s : State) (n : Nat) (k : Cluster) : (setCl s n k).cores = s.cores := rfl
@[simp] theorem setCl_mcs (s : State) (n : Nat) (k : Cluster) : (setCl s n k).mcs = s.mcs := rfl
@[simp] theorem setCl_lnks (s : State) (n : Nat) (k : Cluster) : (setCl s n k).lnks = s.lnks := rfl
@[simp] theorem setCl_parts (s : State) (n : Nat) (k : Cluster) : (setCl s n k).parts = s.parts := rfl
@[simp] theorem setCl_hub (s : State) (n : Nat) (k : Cluster) : (setCl s n k).hub = s.hub := rfl
@[simp] theorem setCl_mesh (s : State) (n : Nat) (k : Cluster) : (setCl s n k).mesh = s.mesh := rfl
@[simp] theorem setCl_outbox (s : State) (n : Nat) (k : Cluster) : (setCl s n k).outbox = s.outbox := rfl
@[simp] theorem setCl_free (s : State) (n : Nat) (k : Cluster) : (setCl s n k).free = s.free := rfl
@[simp] theorem setCl_pending (s : State) (n : Nat) (k : Cluster) : (setCl s n k).pending = s.pending := rfl
@[simp] theorem setCl_clusters (s : State) (n : Nat) (k : Cluster) : (setCl s n k).clusters = tset s.clusters n k := rfl
@[simp] theorem getCl_setCl (s : State) (n : Nat) (k : Cluster) : getCl (setCl s n k) n = k := tget_tset_self _ _ _ _
theorem getCl_setCl_ne (s : State) {n m : Nat} (k : Cluster) (h : n ≠ m) : getCl (setCl s n k) m = getCl s m := tget_tset_ne _ _ _ h
@[simp] theorem getCore_setCl (s : State) (n : Nat) (k : Cluster) (m : Nat) : getCore (setCl s n k) m = getCore s m := rfl
@[simp] theorem getMc_setCl (s : State) (n : Nat) (k : Cluster) (m : Nat) : getMc (setCl s n k) m = getMc s m := rfl
@[simp] theorem getLnk_setCl (s : State) (n : Nat) (k : Cluster) (m : Nat) : getLnk (setCl s n k) m = getLnk s m := rfl
@[simp] theorem getPart_setCl (s : State) (n : Nat) (k : Cluster) (m : Nat) : getPart (setCl s n k) m = getPart s m := rfl
/-! ### setMc -/
@[simp] theorem setMc_cores (s : State) (n : Nat) (k : Mc) : (setMc s n k).cores = s.cores := rfl
@[simp] theorem setMc_clusters (s : State) (n : Nat) (k : Mc) : (setMc s n k).clusters = s.clusters := rfl
@[simp] theorem setMc_lnks (s : State) (n : Nat) (k : Mc) : (setMc s n k).lnks = s.lnks := rfl
@[simp] theorem setMc_parts (s : State) (n : Nat) (k : Mc) : (setMc s n k).parts = s.parts := rfl
@[simp] theorem setMc_hub (s : State) (n : Nat) (k : Mc) : (setMc s n k).hub = s.hub := rfl
@[simp] theorem setMc_mesh (s : State) (n : Nat) (k : Mc) : (setMc s n k).mesh = s.mesh := rfl
@[simp] theorem setMc_outbox (s : State) (n : Nat) (k : Mc) : (setMc s n k).outbox = s.outbox := rfl
@[simp] theorem setMc_free (s : State) (n : Nat) (k : Mc) : (setMc s n k).free = s.free := rfl
@[simp] theorem setMc_pending (s : State) (n : Nat) (k : Mc) : (setMc s n k).pending = s.pending := rfl
@[simp] theorem setMc_mcs (s : State) (n : Nat) (k : Mc) : (setMc s n k).mcs = tset s.mcs n k := rfl
@[simp] theorem getMc_setMc (s : State) (n : Nat) (k : Mc) : getMc (setMc s n k) n = k := tget_tset_self _ _ _ _
theorem getMc_setMc_ne (s : State) {n m : Nat} (k : Mc) (h : n ≠ m) : getMc (setMc s n k) m = getMc s m := tget_tset_ne _ _ _ h
@[simp] theorem getCore_setMc (s : State) (n : Nat) (k : Mc) (m : Nat) : getCore (setMc s n k) m = getCore s m := rfl
@[simp] theorem getCl_setMc (s : State) (n : Nat) (k : Mc) (m : Nat) : getCl (setMc s n k) m = getCl s m := rfl
@[simp] theorem getLnk_setMc (s : State) (n : Nat) (k : Mc) (m : Nat) : getLnk (setMc s n k) m = getLnk s m := rfl
@[simp] theorem getPart_setMc (s : State) (n : Nat) (k : Mc) (m : Nat) : getPart (setMc s n k) m = getPart s m := rfl
/-! ### setLnk -/
@[simp] theorem setLnk_cores (s : State) (n : Nat) (k : Lnk) : (setLnk s n k).cores = s.cores := rfl
@[simp] theorem setLnk_clusters (s : State) (n : Nat) (k : Lnk) : (setLnk s n k).clusters = s.clusters := rfl
@[simp] theorem setLnk_mcs (s : State) (n : Nat) (k : Lnk) : (setLnk s n k).mcs = s.mcs := rfl
@[simp] theorem setLnk_parts (s : State) (n : Nat) (k : Lnk) : (setLnk s n k).parts = s.parts := rfl
@[simp] theorem setLnk_hub (s : State) (n : Nat) (k : Lnk) : (setLnk s n k).hub = s.hub := rfl
@[simp] theorem setLnk_mesh (s : State) (n : Nat) (k : Lnk) : (setLnk s n k).mesh = s.mesh := rfl
@[simp] theorem setLnk_outbox (s : State) (n : Nat) (k : Lnk) : (setLnk s n k).outbox = s.outbox := rfl
@[simp] theorem setLnk_free (s : State) (n : Nat) (k : Lnk) : (setLnk s n k).free = s.free := rfl
@[simp] theorem setLnk_pending (s : State) (n : Nat) (k : Lnk) : (setLnk s n k).pending = s.pending := rfl
@[simp] theorem setLnk_lnks (s : State) (n : Nat) (k : Lnk) : (setLnk s n k).lnks = tset s.lnks n k := rfl
@[simp] theorem getLnk_setLnk (s : State) (n : Nat) (k : Lnk) : getLnk (setLnk s n k) n = k := tget_tset_self _ _ _ _
theorem getLnk_setLnk_ne (s : State) {n m : Nat} (k : Lnk) (h : n ≠ m) : getLnk (setLnk s n k) m = getLnk s m := tget_tset_ne _ _ _ h
@[simp] theorem getCore_setLnk (s : State) (n : Nat) (k : Lnk) (m : Nat) : getCore (setLnk s n k) m = getCore s m := rfl
@[simp] theorem getCl_setLnk (s : State) (n : Nat) (k : Lnk) (m : Nat) : getCl (setLnk s n k) m = getCl s m := rfl
@[simp] theorem getMc_setLnk (s : State) (n : Nat) (k : Lnk) (m : Nat) : getMc (setLnk s n k) m = getMc s m := rfl
@[simp] theorem getPart_setLnk (s : State) (n : Nat) (k : Lnk) (m : Nat) : getPart (setLnk s n k) m = getPart s m := rfl
/-! ### setPart -/
@[simp] theorem setPart_cores (s : State) (n : Nat) (k : Part) : (setPart s n k).cores = s.cores := rfl
@[simp] theorem setPart_clusters (s : State) (n : Nat) (k : Part) : (setPart s n k).clusters = s.clusters := rfl
@[simp] theorem setPart_mcs (s : State) (n : Nat) (k : Part) : (setPart s n k).mcs = s.mcs := rfl
@[simp] theorem setPart_lnks (s : State) (n : Nat) (k : Part) : (setPart s n k).lnks = s.lnks := rfl
@[simp] theorem setPart_hub (s : State) (n : Nat) (k : Part) : (setPart s n k).hub = s.hub := rfl
@[simp] theorem setPart_mesh (s : State) (n : Nat) (k : Part) : (setPart s n k).mesh = s.mesh := rfl
@[simp] theorem setPart_outbox (s : State) (n : Nat) (k : Part) : (setPart s n k).outbox = s.outbox := rfl
@[simp] theorem setPart_free (s : State) (n : Nat) (k : Part) : (setPart s n k).free = s.free := rfl
@[simp] theorem setPart_pending (s : State) (n : Nat) (k : Part) : (setPart s n k).pending = s.pending := rfl
@[simp] theorem setPart_parts (s : State) (n : Nat) (k : Part) : (setPart s n k).parts = tset s.parts n k := rfl
@[simp] theorem getPart_setPart (s : State) (n : Nat) (k : Part) : getPart (setPart s n k) n = k := tget_tset_self _ _ _ _
theorem getPart_setPart_ne (s : State) {n m : Nat} (k : Part) (h : n ≠ m) : getPart (setPart s n k) m = getPart s m := tget_tset_ne _ _ _ h
@[simp] theorem getCore_setPart (s : State) (n : Nat) (k : Part) (m : Nat) : getCore (setPart s n k) m = getCore s m := rfl
@[simp] theorem getCl_setPart (s : State) (n : Nat) (k : Part) (m : Nat) : getCl (setPart s n k) m = getCl s m := rfl
@[simp] theorem getMc_setPart (s : State) (n : Nat) (k : Part) (m : Nat) : getMc (setPart s n k) m = getMc s m := rfl
@[simp] theorem getLnk_setPart (s : State) (n : Nat) (k : Part) (m : Nat) : getLnk (setPart s n k) m = getLnk s m := rfl
/-! ### modHub -/
@[simp] theorem modHub_cores (s : State) (f : Hub → Hub) : (modHub s f).cores = s.cores := rfl
@[simp] theorem modHub_clusters (s : State) (f : Hub → Hub) : (modHub s f).clusters = s.clusters := rfl
@[simp] theorem modHub_mcs (s : State) (f : Hub → Hub) : (modHub s f).mcs = s.mcs := rfl
@[simp] theorem modHub_lnks (s : State) (f : Hub → Hub) : (modHub s f).lnks = s.lnks := rfl
@[simp] theorem modHub_parts (s : State) (f : Hub → Hub) : (modHub s f).parts = s.parts := rfl
@[simp] theorem modHub_mesh (s : State) (f : Hub → Hub) : (modHub s f).mesh = s.mesh := rfl
@[simp] theorem modHub_outbox (s : State) (f : Hub → Hub) : (modHub s f).outbox = s.outbox := rfl
@[simp] theorem modHub_free (s : State) (f : Hub → Hub) : (modHub s f).free = s.free := rfl
@[simp] theorem modHub_pending (s : State) (f : Hub → Hub) : (modHub s f).pending = s.pending := rfl
@[simp] theorem modHub_hub (s : State) (f : Hub → Hub) : (modHub s f).hub = f s.hub := rfl
@[simp] theorem getCore_modHub (s : State) (f : Hub → Hub) (m : Nat) : getCore (modHub s f) m = getCore s m := rfl
@[simp] theorem getCl_modHub (s : State) (f : Hub → Hub) (m : Nat) : getCl (modHub s f) m = getCl s m := rfl
@[simp] theorem getMc_modHub (s : State) (f : Hub → Hub) (m : Nat) : getMc (modHub s f) m = getMc s m := rfl
@[simp] theorem getLnk_modHub (s : State) (f : Hub → Hub) (m : Nat) : getLnk (modHub s f) m = getLnk s m := rfl
@[simp] theorem getPart_modHub (s : State) (f : Hub → Hub) (m : Nat) : getPart (modHub s f) m = getPart s m := rfl
/-! ### Core.setReg -/
@[simp] theorem Core.setReg_active (k : Core) (o : Nat) (v : Word) : (k.setReg o v).active = k.active := rfl
@[simp] theorem Core.setReg_ctxs (k : Core) (o : Nat) (v : Word) : (k.setReg o v).ctxs = k.ctxs := rfl
@[simp] theorem Core.setReg_firings (k : Core) (o : Nat) (v : Word) : (k.setReg o v).firings = k.firings := rfl
@[simp] theorem Core.setReg_banks (k : Core) (o : Nat) (v : Word) : (k.setReg o v).banks = k.banks := rfl
@[simp] theorem Core.setReg_sram (k : Core) (o : Nat) (v : Word) : (k.setReg o v).sram = k.sram := rfl
@[simp] theorem Core.setReg_prog (k : Core) (o : Nat) (v : Word) : (k.setReg o v).prog = k.prog := rfl
@[simp] theorem Core.setReg_stores (k : Core) (o : Nat) (v : Word) : (k.setReg o v).stores = k.stores := rfl
@[simp] theorem Core.setReg_arrivals (k : Core) (o : Nat) (v : Word) : (k.setReg o v).arrivals = k.arrivals := rfl
@[simp] theorem Core.setReg_outs (k : Core) (o : Nat) (v : Word) : (k.setReg o v).outs = k.outs := rfl
@[simp] theorem Core.setReg_accs (k : Core) (o : Nat) (v : Word) : (k.setReg o v).accs = k.accs := rfl
@[simp] theorem Core.setReg_nextSeq (k : Core) (o : Nat) (v : Word) : (k.setReg o v).nextSeq = k.nextSeq := rfl
@[simp] theorem Core.setReg_nextUid (k : Core) (o : Nat) (v : Word) : (k.setReg o v).nextUid = k.nextUid := rfl
@[simp] theorem Core.setReg_mq (k : Core) (o : Nat) (v : Word) : (k.setReg o v).mq = k.mq := rfl
@[simp] theorem Core.setReg_vq (k : Core) (o : Nat) (v : Word) : (k.setReg o v).vq = k.vq := rfl
@[simp] theorem Core.setReg_rq (k : Core) (o : Nat) (v : Word) : (k.setReg o v).rq = k.rq := rfl
@[simp] theorem Core.setReg_switching (k : Core) (o : Nat) (v : Word) : (k.setReg o v).switching = k.switching := rfl
@[simp] theorem Core.setReg_traps (k : Core) (o : Nat) (v : Word) : (k.setReg o v).traps = k.traps := rfl
@[simp] theorem Core.setReg_halt (k : Core) (o : Nat) (v : Word) : (k.setReg o v).halt = k.halt := rfl
@[simp] theorem Core.setReg_reports (k : Core) (o : Nat) (v : Word) : (k.setReg o v).reports = k.reports := rfl
@[simp] theorem Core.setReg_answers (k : Core) (o : Nat) (v : Word) : (k.setReg o v).answers = k.answers := rfl
@[simp] theorem Core.setReg_overflows (k : Core) (o : Nat) (v : Word) : (k.setReg o v).overflows = k.overflows := rfl
@[simp] theorem Core.setReg_syncRsps (k : Core) (o : Nat) (v : Word) : (k.setReg o v).syncRsps = k.syncRsps := rfl
@[simp] theorem Core.setReg_retries (k : Core) (o : Nat) (v : Word) : (k.setReg o v).retries = k.retries := rfl
@[simp] theorem Core.setReg_dead (k : Core) (o : Nat) (v : Word) : (k.setReg o v).dead = k.dead := rfl
@[simp] theorem Core.setReg_switchNext (k : Core) (o : Nat) (v : Word) : (k.setReg o v).switchNext = k.switchNext := rfl
@[simp] theorem coreReg_setReg (k : Core) (o : Nat) (v : Word) : coreReg (k.setReg o v) o = v := tget_tset_self _ _ _ _
theorem coreReg_setReg_ne (k : Core) {o p : Nat} (v : Word) (h : o ≠ p) : coreReg (k.setReg o v) p = coreReg k p := tget_tset_ne _ _ _ h
theorem coreReg_setReg_if (k : Core) (o p : Nat) (v : Word) : coreReg (k.setReg o v) p = if o = p then v else coreReg k p := tget_tset _ _ _ _ _
/-! ### Cluster.setReg -/
@[simp] theorem Cluster.setReg_queues (k : Cluster) (o : Nat) (v : Word) : (k.setReg o v).queues = k.queues := rfl
@[simp] theorem Cluster.setReg_cross (k : Cluster) (o : Nat) (v : Word) : (k.setReg o v).cross = k.cross := rfl
@[simp] theorem Cluster.setReg_rot (k : Cluster) (o : Nat) (v : Word) : (k.setReg o v).rot = k.rot := rfl
@[simp] theorem Cluster.setReg_units (k : Cluster) (o : Nat) (v : Word) : (k.setReg o v).units = k.units := rfl
@[simp] theorem Cluster.setReg_sw (k : Cluster) (o : Nat) (v : Word) : (k.setReg o v).sw = k.sw := rfl
@[simp] theorem Cluster.setReg_staging (k : Cluster) (o : Nat) (v : Word) : (k.setReg o v).staging = k.staging := rfl
@[simp] theorem Cluster.setReg_chans (k : Cluster) (o : Nat) (v : Word) : (k.setReg o v).chans = k.chans := rfl
@[simp] theorem Cluster.setReg_hive (k : Cluster) (o : Nat) (v : Word) : (k.setReg o v).hive = k.hive := rfl
@[simp] theorem Cluster.setReg_trace (k : Cluster) (o : Nat) (v : Word) : (k.setReg o v).trace = k.trace := rfl
@[simp] theorem Cluster.setReg_dropped (k : Cluster) (o : Nat) (v : Word) : (k.setReg o v).dropped = k.dropped := rfl
@[simp] theorem Cluster.setReg_xlate (k : Cluster) (o : Nat) (v : Word) : (k.setReg o v).xlate = k.xlate := rfl
@[simp] theorem Cluster.setReg_ringBad (k : Cluster) (o : Nat) (v : Word) : (k.setReg o v).ringBad = k.ringBad := rfl
@[simp] theorem Cluster.setReg_ringStop (k : Cluster) (o : Nat) (v : Word) : (k.setReg o v).ringStop = k.ringStop := rfl
@[simp] theorem Cluster.setReg_weights (k : Cluster) (o : Nat) (v : Word) : (k.setReg o v).weights = k.weights := rfl
@[simp] theorem Cluster.setReg_door (k : Cluster) (o : Nat) (v : Word) : (k.setReg o v).door = k.door := rfl
@[simp] theorem Cluster.setReg_cyc (k : Cluster) (o : Nat) (v : Word) : (k.setReg o v).cyc = k.cyc := rfl
@[simp] theorem Cluster.setReg_ringNext (k : Cluster) (o : Nat) (v : Word) : (k.setReg o v).ringNext = k.ringNext := rfl
@[simp] theorem clReg_setReg (k : Cluster) (o : Nat) (v : Word) : clReg (k.setReg o v) o = v := tget_tset_self _ _ _ _
theorem clReg_setReg_ne (k : Cluster) {o p : Nat} (v : Word) (h : o ≠ p) : clReg (k.setReg o v) p = clReg k p := tget_tset_ne _ _ _ h
theorem clReg_setReg_if (k : Cluster) (o p : Nat) (v : Word) : clReg (k.setReg o v) p = if o = p then v else clReg k p := tget_tset _ _ _ _ _
/-! ### Mc.setReg -/
@[simp] theorem Mc.setReg_frames (k : Mc) (o : Nat) (v : Word) : (k.setReg o v).frames = k.frames := rfl
@[simp] theorem Mc.setReg_used (k : Mc) (o : Nat) (v : Word) : (k.setReg o v).used = k.used := rfl
@[simp] theorem Mc.setReg_poison (k : Mc) (o : Nat) (v : Word) : (k.setReg o v).poison = k.poison := rfl
@[simp] theorem Mc.setReg_failed (k : Mc) (o : Nat) (v : Word) : (k.setReg o v).failed = k.failed := rfl
@[simp] theorem Mc.setReg_reloc (k : Mc) (o : Nat) (v : Word) : (k.setReg o v).reloc = k.reloc := rfl
@[simp] theorem Mc.setReg_cyc (k : Mc) (o : Nat) (v : Word) : (k.setReg o v).cyc = k.cyc := rfl
@[simp] theorem Mc.setReg_stn (k : Mc) (o : Nat) (v : Word) : (k.setReg o v).stn = k.stn := rfl
@[simp] theorem mcReg_setReg (k : Mc) (o : Nat) (v : Word) : mcReg (k.setReg o v) o = v := tget_tset_self _ _ _ _
theorem mcReg_setReg_ne (k : Mc) {o p : Nat} (v : Word) (h : o ≠ p) : mcReg (k.setReg o v) p = mcReg k p := tget_tset_ne _ _ _ h
theorem mcReg_setReg_if (k : Mc) (o p : Nat) (v : Word) : mcReg (k.setReg o v) p = if o = p then v else mcReg k p := tget_tset _ _ _ _ _
/-! ### Lnk.setReg -/
@[simp] theorem Lnk.setReg_sync (k : Lnk) (o : Nat) (v : Word) : (k.setReg o v).sync = k.sync := rfl
@[simp] theorem Lnk.setReg_sinkq (k : Lnk) (o : Nat) (v : Word) : (k.setReg o v).sinkq = k.sinkq := rfl
@[simp] theorem Lnk.setReg_txq (k : Lnk) (o : Nat) (v : Word) : (k.setReg o v).txq = k.txq := rfl
@[simp] theorem Lnk.setReg_replay (k : Lnk) (o : Nat) (v : Word) : (k.setReg o v).replay = k.replay := rfl
@[simp] theorem Lnk.setReg_resend (k : Lnk) (o : Nat) (v : Word) : (k.setReg o v).resend = k.resend := rfl
@[simp] theorem Lnk.setReg_resends (k : Lnk) (o : Nat) (v : Word) : (k.setReg o v).resends = k.resends := rfl
@[simp] theorem Lnk.setReg_txSeq (k : Lnk) (o : Nat) (v : Word) : (k.setReg o v).txSeq = k.txSeq := rfl
@[simp] theorem Lnk.setReg_rxSeq (k : Lnk) (o : Nat) (v : Word) : (k.setReg o v).rxSeq = k.rxSeq := rfl
@[simp] theorem Lnk.setReg_ackDue (k : Lnk) (o : Nat) (v : Word) : (k.setReg o v).ackDue = k.ackDue := rfl
@[simp] theorem Lnk.setReg_nakDue (k : Lnk) (o : Nat) (v : Word) : (k.setReg o v).nakDue = k.nakDue := rfl
@[simp] theorem Lnk.setReg_cred0 (k : Lnk) (o : Nat) (v : Word) : (k.setReg o v).cred0 = k.cred0 := rfl
@[simp] theorem Lnk.setReg_cred1 (k : Lnk) (o : Nat) (v : Word) : (k.setReg o v).cred1 = k.cred1 := rfl
@[simp] theorem Lnk.setReg_owed0 (k : Lnk) (o : Nat) (v : Word) : (k.setReg o v).owed0 = k.owed0 := rfl
@[simp] theorem Lnk.setReg_owed1 (k : Lnk) (o : Nat) (v : Word) : (k.setReg o v).owed1 = k.owed1 := rfl
@[simp] theorem Lnk.setReg_grpTx (k : Lnk) (o : Nat) (v : Word) : (k.setReg o v).grpTx = k.grpTx := rfl
@[simp] theorem Lnk.setReg_grpAad (k : Lnk) (o : Nat) (v : Word) : (k.setReg o v).grpAad = k.grpAad := rfl
@[simp] theorem Lnk.setReg_grpPlain (k : Lnk) (o : Nat) (v : Word) : (k.setReg o v).grpPlain = k.grpPlain := rfl
@[simp] theorem Lnk.setReg_txLane (k : Lnk) (o : Nat) (v : Word) : (k.setReg o v).txLane = k.txLane := rfl
@[simp] theorem Lnk.setReg_grpRx (k : Lnk) (o : Nat) (v : Word) : (k.setReg o v).grpRx = k.grpRx := rfl
@[simp] theorem Lnk.setReg_keys (k : Lnk) (o : Nat) (v : Word) : (k.setReg o v).keys = k.keys := rfl
@[simp] theorem Lnk.setReg_grpSync (k : Lnk) (o : Nat) (v : Word) : (k.setReg o v).grpSync = k.grpSync := rfl
@[simp] theorem Lnk.setReg_fwd (k : Lnk) (o : Nat) (v : Word) : (k.setReg o v).fwd = k.fwd := rfl
@[simp] theorem Lnk.setReg_nextTid (k : Lnk) (o : Nat) (v : Word) : (k.setReg o v).nextTid = k.nextTid := rfl
@[simp] theorem Lnk.setReg_frag (k : Lnk) (o : Nat) (v : Word) : (k.setReg o v).frag = k.frag := rfl
@[simp] theorem Lnk.setReg_redPart (k : Lnk) (o : Nat) (v : Word) : (k.setReg o v).redPart = k.redPart := rfl
@[simp] theorem Lnk.setReg_redRes (k : Lnk) (o : Nat) (v : Word) : (k.setReg o v).redRes = k.redRes := rfl
@[simp] theorem Lnk.setReg_held (k : Lnk) (o : Nat) (v : Word) : (k.setReg o v).held = k.held := rfl
@[simp] theorem Lnk.setReg_fault (k : Lnk) (o : Nat) (v : Word) : (k.setReg o v).fault = k.fault := rfl
@[simp] theorem Lnk.setReg_deaf (k : Lnk) (o : Nat) (v : Word) : (k.setReg o v).deaf = k.deaf := rfl
@[simp] theorem Lnk.setReg_spareBad (k : Lnk) (o : Nat) (v : Word) : (k.setReg o v).spareBad = k.spareBad := rfl
@[simp] theorem Lnk.setReg_retrains (k : Lnk) (o : Nat) (v : Word) : (k.setReg o v).retrains = k.retrains := rfl
@[simp] theorem Lnk.setReg_prxN (k : Lnk) (o : Nat) (v : Word) : (k.setReg o v).prxN = k.prxN := rfl
@[simp] theorem Lnk.setReg_prxLen (k : Lnk) (o : Nat) (v : Word) : (k.setReg o v).prxLen = k.prxLen := rfl
@[simp] theorem Lnk.setReg_cyc (k : Lnk) (o : Nat) (v : Word) : (k.setReg o v).cyc = k.cyc := rfl
@[simp] theorem Lnk.setReg_groups (k : Lnk) (o : Nat) (v : Word) : (k.setReg o v).groups = k.groups := rfl
@[simp] theorem Lnk.setReg_frame (k : Lnk) (o : Nat) (v : Word) : (k.setReg o v).frame = k.frame := rfl
@[simp] theorem Lnk.setReg_frames (k : Lnk) (o : Nat) (v : Word) : (k.setReg o v).frames = k.frames := rfl
@[simp] theorem Lnk.setReg_lanes (k : Lnk) (o : Nat) (v : Word) : (k.setReg o v).lanes = k.lanes := rfl
@[simp] theorem lnkReg_setReg (k : Lnk) (o : Nat) (v : Word) : lnkReg (k.setReg o v) o = v := tget_tset_self _ _ _ _
theorem lnkReg_setReg_ne (k : Lnk) {o p : Nat} (v : Word) (h : o ≠ p) : lnkReg (k.setReg o v) p = lnkReg k p := tget_tset_ne _ _ _ h
theorem lnkReg_setReg_if (k : Lnk) (o p : Nat) (v : Word) : lnkReg (k.setReg o v) p = if o = p then v else lnkReg k p := tget_tset _ _ _ _ _
/-! ### Part.setReg -/
@[simp] theorem Part.setReg_fn (k : Part) (o : Nat) (v : Word) : (k.setReg o v).fn = k.fn := rfl
@[simp] theorem Part.setReg_ind (k : Part) (o : Nat) (v : Word) : (k.setReg o v).ind = k.ind := rfl
@[simp] theorem Part.setReg_grants (k : Part) (o : Nat) (v : Word) : (k.setReg o v).grants = k.grants := rfl
@[simp] theorem Part.setReg_pt2 (k : Part) (o : Nat) (v : Word) : (k.setReg o v).pt2 = k.pt2 := rfl
@[simp] theorem Part.setReg_pt3 (k : Part) (o : Nat) (v : Word) : (k.setReg o v).pt3 = k.pt3 := rfl
@[simp] theorem Part.setReg_slots (k : Part) (o : Nat) (v : Word) : (k.setReg o v).slots = k.slots := rfl
@[simp] theorem Part.setReg_label (k : Part) (o : Nat) (v : Word) : (k.setReg o v).label = k.label := rfl
@[simp] theorem Part.setReg_step (k : Part) (o : Nat) (v : Word) : (k.setReg o v).step = k.step := rfl
@[simp] theorem Part.setReg_hwrBase (k : Part) (o : Nat) (v : Word) : (k.setReg o v).hwrBase = k.hwrBase := rfl
@[simp] theorem Part.setReg_hwrSeq (k : Part) (o : Nat) (v : Word) : (k.setReg o v).hwrSeq = k.hwrSeq := rfl
@[simp] theorem Part.setReg_hwrPhase (k : Part) (o : Nat) (v : Word) : (k.setReg o v).hwrPhase = k.hwrPhase := rfl
@[simp] theorem Part.setReg_trcAt (k : Part) (o : Nat) (v : Word) : (k.setReg o v).trcAt = k.trcAt := rfl
@[simp] theorem Part.setReg_trcSeq (k : Part) (o : Nat) (v : Word) : (k.setReg o v).trcSeq = k.trcSeq := rfl
@[simp] theorem Part.setReg_trcPhase (k : Part) (o : Nat) (v : Word) : (k.setReg o v).trcPhase = k.trcPhase := rfl
@[simp] theorem Part.setReg_log (k : Part) (o : Nat) (v : Word) : (k.setReg o v).log = k.log := rfl
@[simp] theorem Part.setReg_logCount (k : Part) (o : Nat) (v : Word) : (k.setReg o v).logCount = k.logCount := rfl
@[simp] theorem Part.setReg_logDigest (k : Part) (o : Nat) (v : Word) : (k.setReg o v).logDigest = k.logDigest := rfl
@[simp] theorem Part.setReg_policy (k : Part) (o : Nat) (v : Word) : (k.setReg o v).policy = k.policy := rfl
@[simp] theorem Part.setReg_sealKey (k : Part) (o : Nat) (v : Word) : (k.setReg o v).sealKey = k.sealKey := rfl
@[simp] theorem Part.setReg_sealSalt (k : Part) (o : Nat) (v : Word) : (k.setReg o v).sealSalt = k.sealSalt := rfl
@[simp] theorem Part.setReg_sealCtr (k : Part) (o : Nat) (v : Word) : (k.setReg o v).sealCtr = k.sealCtr := rfl
@[simp] theorem Part.setReg_pass (k : Part) (o : Nat) (v : Word) : (k.setReg o v).pass = k.pass := rfl
@[simp] theorem Part.setReg_reads (k : Part) (o : Nat) (v : Word) : (k.setReg o v).reads = k.reads := rfl
@[simp] theorem partReg_setReg (k : Part) (o : Nat) (v : Word) : partReg (k.setReg o v) o = v := tget_tset_self _ _ _ _
theorem partReg_setReg_ne (k : Part) {o p : Nat} (v : Word) (h : o ≠ p) : partReg (k.setReg o v) p = partReg k p := tget_tset_ne _ _ _ h
theorem partReg_setReg_if (k : Part) (o p : Nat) (v : Word) : partReg (k.setReg o v) p = if o = p then v else partReg k p := tget_tset _ _ _ _ _
/-! ### Hub.setReg -/
@[simp] theorem Hub.setReg_pf (k : Hub) (o : Nat) (v : Word) : (k.setReg o v).pf = k.pf := rfl
@[simp] theorem Hub.setReg_ind (k : Hub) (o : Nat) (v : Word) : (k.setReg o v).ind = k.ind := rfl
@[simp] theorem Hub.setReg_hccRsps (k : Hub) (o : Nat) (v : Word) : (k.setReg o v).hccRsps = k.hccRsps := rfl
@[simp] theorem Hub.setReg_hccDirty (k : Hub) (o : Nat) (v : Word) : (k.setReg o v).hccDirty = k.hccDirty := rfl
@[simp] theorem Hub.setReg_hccLoad (k : Hub) (o : Nat) (v : Word) : (k.setReg o v).hccLoad = k.hccLoad := rfl
@[simp] theorem Hub.setReg_xlate (k : Hub) (o : Nat) (v : Word) : (k.setReg o v).xlate = k.xlate := rfl
@[simp] theorem Hub.setReg_host (k : Hub) (o : Nat) (v : Word) : (k.setReg o v).host = k.host := rfl
@[simp] theorem Hub.setReg_hostOld (k : Hub) (o : Nat) (v : Word) : (k.setReg o v).hostOld = k.hostOld := rfl
@[simp] theorem Hub.setReg_sbSpdm (k : Hub) (o : Nat) (v : Word) : (k.setReg o v).sbSpdm = k.sbSpdm := rfl
@[simp] theorem Hub.setReg_reqs (k : Hub) (o : Nat) (v : Word) : (k.setReg o v).reqs = k.reqs := rfl
@[simp] theorem Hub.setReg_nextTag (k : Hub) (o : Nat) (v : Word) : (k.setReg o v).nextTag = k.nextTag := rfl
@[simp] theorem Hub.setReg_nextKey (k : Hub) (o : Nat) (v : Word) : (k.setReg o v).nextKey = k.nextKey := rfl
@[simp] theorem Hub.setReg_rot (k : Hub) (o : Nat) (v : Word) : (k.setReg o v).rot = k.rot := rfl
@[simp] theorem Hub.setReg_pwr (k : Hub) (o : Nat) (v : Word) : (k.setReg o v).pwr = k.pwr := rfl
@[simp] theorem Hub.setReg_markers (k : Hub) (o : Nat) (v : Word) : (k.setReg o v).markers = k.markers := rfl
@[simp] theorem Hub.setReg_acks (k : Hub) (o : Nat) (v : Word) : (k.setReg o v).acks = k.acks := rfl
@[simp] theorem Hub.setReg_cyc (k : Hub) (o : Nat) (v : Word) : (k.setReg o v).cyc = k.cyc := rfl
@[simp] theorem Hub.setReg_molts (k : Hub) (o : Nat) (v : Word) : (k.setReg o v).molts = k.molts := rfl
@[simp] theorem Hub.setReg_colSp (k : Hub) (o : Nat) (v : Word) : (k.setReg o v).colSp = k.colSp := rfl
@[simp] theorem Hub.setReg_rowSp (k : Hub) (o : Nat) (v : Word) : (k.setReg o v).rowSp = k.rowSp := rfl
@[simp] theorem Hub.setReg_lossDue (k : Hub) (o : Nat) (v : Word) : (k.setReg o v).lossDue = k.lossDue := rfl
@[simp] theorem Hub.setReg_txBase (k : Hub) (o : Nat) (v : Word) : (k.setReg o v).txBase = k.txBase := rfl
@[simp] theorem hubReg_setReg (k : Hub) (o : Nat) (v : Word) : hubReg (k.setReg o v) o = v := tget_tset_self _ _ _ _
theorem hubReg_setReg_ne (k : Hub) {o p : Nat} (v : Word) (h : o ≠ p) : hubReg (k.setReg o v) p = hubReg k p := tget_tset_ne _ _ _ h
theorem hubReg_setReg_if (k : Hub) (o p : Nat) (v : Word) : hubReg (k.setReg o v) p = if o = p then v else hubReg k p := tget_tset _ _ _ _ _

end Sys2Proof.Machine
end

