-- ==== Sys2Proof/Laws/Issue.lean ====
section
/-! SUPPORT. The issue of an instruction: the one outcome of a run that is ready, and what the end of an instruction changes. -/
namespace Sys2Proof

open Machine

variable {s : State} {c : CoreIx} {id : RunId} {r : Run} {g : Guard} {us : List (BitVec 5)} {eff : Site → Act} {bad : Bool}

/-- The site of a ready run. -/
abbrev theSite (s : State) (c : CoreIx) (id : RunId) (r : Run) : Site :=
  { s := s, c := c.val, k := getCore s c.val, x := ctxOf (getCore s c.val) (getCore s c.val).active, r := r, id := id }

theorem issue_ready (h : Ready s c id r g us) (hb : bad = false) :
    issue c id g bad us eff s = .next (doAct (theSite s c id r) (eff (theSite s c id r))) := by
  obtain ⟨h1, h2, hw, h3, h4, h5⟩ := h
  subst hb
  simp only [issue, h1, h2, hw, h3, h4, h5]
  simp

/-- The same of a command whose meaning is that issue. -/
theorem exec_ready {i : Instr} (hx : exec i s = issue c id g bad us eff s) (h : Ready s c id r g us) (hb : bad = false) :
    exec i s = .next (doAct (theSite s c id r) (eff (theSite s c id r))) := hx.trans (issue_ready h hb)

/-- A run that cannot issue leaves the state as it is. -/
theorem issue_none (h : mayIssue s c.val id = none) : issue c id g bad us eff s = .next s := by
  simp [issue, h]

theorem canIssue_runOf {k : Core} (h : canIssue k id = some r) : runOf k id = some r := by
  unfold canIssue at h
  split at h
  · split at h
    · simp_all
    · simp at h
  · simp at h

theorem mayIssue_canIssue (h : mayIssue s c.val id = some r) : canIssue (getCore s c.val) id = some r := by
  unfold mayIssue at h
  split at h <;> simp_all

theorem mayIssue_runOf (h : mayIssue s c.val id = some r) : runOf (getCore s c.val) id = some r := canIssue_runOf (mayIssue_canIssue h)

/-- In a running island an event has its effect; in a stopped one it has none. -/
@[simp] theorem running_on {o : Out} (h : pmActive s = true) : running s o = o := by simp [running, h]
@[simp] theorem running_off {o : Out} (h : pmActive s = false) : running s o = .next s := by simp [running, h]

@[simp] theorem doAct_go_seq (i : Site) (k : Core) (r : Run) (post : State → State) :
    doAct i (.go k r .seq post) = settle i.s i.c i.id k (pastWord r i.r.pc.toNat).1 post (pastWord r i.r.pc.toNat).2 := rfl

@[simp] theorem doAct_trap (i : Site) (cause info : Nat) :
    doAct i (.trap cause info) = takeTrap (setCore i.s i.c i.k.issued) i.c i.id i.r cause info := rfl

@[simp] theorem settle_false (s : State) (c : Nat) (id : RunId) (k : Core) (r : Run) (post : State → State) :
    settle s c id k r post false = post (setCore s c (k.setRun id r).issued) := rfl

/-- Every issue answers a next state. -/
theorem issue_next : ∃ t, issue c id g bad us eff s = .next t := by
  dsimp only [issue]
  repeat' split
  all_goals exact ⟨_, rfl⟩

/-! ### What the end of an instruction leaves -/

theorem core_masked (k : Core) (id : RunId) (r : Run) :
    { (k.setRun id r).issued with regs := [], ctxs := [], firings := [] } = { k with regs := [], ctxs := [], firings := [] } := by
  cases id <;> rfl

@[simp] theorem runOf_setRun_issued (k : Core) (id : RunId) (r : Run) : runOf (k.setRun id r).issued id = some r := by
  cases id <;> simp [runOf, Core.setRun, Core.issued, Core.count, Core.setReg, Core.setCtx, ctxOf]

@[simp] theorem issued_active (k : Core) (id : RunId) (r : Run) : (k.setRun id r).issued.active = k.active := by cases id <;> rfl

theorem coreReg_issued (k : Core) (id : RunId) (r : Run) (o : Nat) :
    coreReg (k.setRun id r).issued o = coreReg k o + (if o = 0x094 then 1 else 0) := by
  by_cases h : o = 0x094
  · subst h; cases id <;> simp [coreReg, Core.setRun, Core.issued, Core.count, Core.setReg, Core.setCtx] <;> rfl
  · cases id <;> simp [coreReg, Core.setRun, Core.issued, Core.count, Core.setReg, Core.setCtx, tget_tset_ne _ _ _ (Ne.symm h), h]

theorem firings_issued (k : Core) (id : RunId) (r : Run) (n : Fin 8) (h : id ≠ .slot n) :
    tfind (k.setRun id r).issued.firings n.val = tfind k.firings n.val := by
  cases id with
  | setup => rfl
  | slot m =>
    have : m.val ≠ n.val := fun e => h (by rw [Fin.ext e])
    simp [Core.setRun, Core.issued, Core.count, Core.setReg, tfind_tset_ne _ _ this]

theorem ctxOf_issued (k : Core) (id : RunId) (r : Run) (x : Nat) :
    ctxOf (k.setRun id r).issued x = if id = .setup ∧ x = k.active then { ctxOf k k.active with setup := some r } else ctxOf k x := by
  cases id with
  | setup =>
    simp [Core.setRun, Core.issued, Core.count, Core.setReg, Core.setCtx, ctxOf, tget_tset, eq_comm]
  | slot m => simp [Core.setRun, Core.issued, Core.count, Core.setReg, ctxOf]

theorem onlyCore_setCore (s : State) (c : Nat) (k : Core) : OnlyCore s (setCore s c k) c :=
  ⟨rfl, fun _ h => getCore_setCore_ne s k (Ne.symm h)⟩

/-- A run put back into a core whose other state is the old one, but for shared scalar registers of the active context. -/
theorem onlyRun_settle (r' : Run) (sh : Tbl Word) :
    OnlyRun s (setCore s c.val (((getCore s c.val).setCtx (getCore s c.val).active
      { ctxOf (getCore s c.val) (getCore s c.val).active with shared := sh }).setRun id r').issued) c id r' := by
  constructor
  · exact onlyCore_setCore ..
  · simp
  · rw [getCore_setCore]; exact core_masked _ _ _
  · intro a; rw [getCore_setCore]; cases id <;> rfl
  · intro o; rw [getCore_setCore, coreReg_issued]; rfl
  · intro n h; rw [getCore_setCore, firings_issued _ _ _ _ h]; rfl
  · intro x h
    rw [getCore_setCore, ctxOf_issued]
    split
    · rename_i h'; exact absurd h'.2 h
    · simp [ctxOf, Core.setCtx, tget_tset_ne _ _ _ (Ne.symm h)]
  · rw [getCore_setCore, ctxOf_issued]
    split <;> simp [ctxOf, Core.setCtx]
  · intro h
    rw [getCore_setCore, ctxOf_issued, if_neg (fun e => h e.1)]
    simp [ctxOf, Core.setCtx]

/-- The same with the shared registers as they were. -/
theorem onlyRun_same (r' : Run) : OnlyRun s (setCore s c.val ((getCore s c.val).setRun id r').issued) c id r' := by
  constructor
  · exact onlyCore_setCore ..
  · simp
  · rw [getCore_setCore]; exact core_masked _ _ _
  · intro a; rw [getCore_setCore]; cases id <;> rfl
  · intro o; rw [getCore_setCore, coreReg_issued]
  · intro n h; rw [getCore_setCore, firings_issued _ _ _ _ h]
  · intro x h
    rw [getCore_setCore, ctxOf_issued, if_neg (fun e => h e.2)]
  · rw [getCore_setCore, ctxOf_issued]
    split <;> simp
  · intro h
    rw [getCore_setCore, ctxOf_issued, if_neg (fun e => h e.1)]

end Sys2Proof
end

