-- ==== Sys2Proof/Laws/Memory.lean ====
section
/-! SUPPORT. Memories: a read after a write, and the canonical form, which every memory operation keeps. -/
namespace Sys2Proof.Machine

theorem mem_cellsAt {bs : List Byte} {a : Nat} {c : Nat × Byte} (h : c ∈ cellsAt bs a) : a ≤ c.1 ∧ c.1 < a + bs.length ∧ c.2 ≠ Mem.blank := by
  induction bs generalizing a with
  | nil => simp [cellsAt] at h
  | cons b bs ih =>
    simp only [cellsAt] at h
    split at h
    · have h1 := ih h; exact ⟨by omega, by simp only [List.length_cons]; omega, h1.2.2⟩
    · rcases List.mem_cons.1 h with rfl | h
      · simp_all
      · have h1 := ih h; exact ⟨by omega, by simp only [List.length_cons]; omega, h1.2.2⟩

theorem cellsAt_wf (bs : List Byte) (a : Nat) : Mem.wf (cellsAt bs a) := by
  induction bs generalizing a with
  | nil => simp [cellsAt, Mem.wf]
  | cons b bs ih =>
    simp only [cellsAt]
    split
    · exact ih _
    · refine ⟨List.pairwise_cons.2 ⟨fun c hc => ?_, (ih _).1⟩, ?_⟩
      · have := mem_cellsAt hc; simp only; omega
      · simp only [List.all_cons, Bool.and_eq_true]
        exact ⟨by simpa using ‹_›, (ih _).2⟩

theorem filter_wf {m : Mem} (f : Nat × Byte → Bool) (h : Mem.wf m) : Mem.wf (m.filter f) :=
  ⟨h.1.filter _, List.all_eq_true.2 (fun c hc => List.all_eq_true.1 h.2 c (List.mem_of_mem_filter hc))⟩

theorem append_wf {m n : Mem} (hm : Mem.wf m) (hn : Mem.wf n) (h : ∀ a ∈ m, ∀ b ∈ n, a.1 < b.1) : Mem.wf (m ++ n) :=
  ⟨List.pairwise_append.2 ⟨hm.1, hn.1, h⟩, by simp only [List.all_append, Bool.and_eq_true]; exact ⟨hm.2, hn.2⟩⟩

/-- A store keeps the canonical form. -/
theorem mwrites_wf {m : Mem} (a : Nat) (bs : List Byte) (h : Mem.wf m) : Mem.wf (mwrites m a bs) := by
  unfold mwrites
  refine append_wf (append_wf (filter_wf _ h) (cellsAt_wf _ _) ?_) (filter_wf _ h) ?_
  · intro x hx y hy
    have := mem_cellsAt hy
    have := (List.mem_filter.1 hx).2
    simp only [decide_eq_true_eq] at this; omega
  · intro x hx y hy
    have h2 := (List.mem_filter.1 hy).2
    simp only [decide_eq_true_eq] at h2
    rcases List.mem_append.1 hx with hx | hx
    · have := (List.mem_filter.1 hx).2
      simp only [decide_eq_true_eq] at this; omega
    · have := mem_cellsAt hx; omega

/-- Zeroing a range keeps it. -/
theorem mzero_wf {m : Mem} (a n : Nat) (h : Mem.wf m) : Mem.wf (mzero m a n) := filter_wf _ h

theorem mslice_wf {m : Mem} (a n : Nat) (h : Mem.wf m) : Mem.wf (mslice m a n) := filter_wf _ h

/-- Several stores keep it. -/
theorem foldl_mwrites_wf {β : Type} (f : β → Nat) (g : β → List Byte) (l : List β) {m : Mem} (h : Mem.wf m) :
    Mem.wf (l.foldl (fun m x => mwrites m (f x) (g x)) m) := by
  induction l generalizing m with
  | nil => exact h
  | cons x l ih => exact ih (mwrites_wf _ _ h)

theorem mread_append (m n : Mem) (a : Nat) : mread (m ++ n) a = if m.any (fun c => c.1 == a) then mread m a else mread n a := by
  induction m with
  | nil => simp
  | cons c m ih =>
    by_cases h : c.1 = a
    · simp [mread, h]
    · simp [mread, h, ih]

theorem mread_none {m : Mem} {a : Nat} (h : m.any (fun c => c.1 == a) = false) : mread m a = Mem.blank := by
  induction m with
  | nil => rfl
  | cons c m ih =>
    simp only [List.any_cons, Bool.or_eq_false_iff, beq_eq_false_iff_ne] at h
    simp [mread, h.1, ih h.2]

theorem mread_filter (m : Mem) (f : Nat → Bool) (a : Nat) : mread (m.filter (fun c => f c.1)) a = if f a then mread m a else Mem.blank := by
  induction m with
  | nil => simp [mread]
  | cons c m ih =>
    by_cases h : c.1 = a
    · by_cases hf : f a
      · simp [mread, h, hf]
      · simp [h, hf, ih]
    · by_cases hc : f c.1
      · simp [mread, h, hc, ih]
      · simp [hc, ih, mread, h]

theorem mread_cellsAt (bs : List Byte) (a b : Nat) : mread (cellsAt bs a) b = if a ≤ b ∧ b < a + bs.length then bs.getD (b - a) 0 else Mem.blank := by
  induction bs generalizing a with
  | nil => simp [cellsAt, mread]
  | cons x bs ih =>
    simp only [cellsAt]
    by_cases hab : a = b
    · subst hab
      split
      · rw [ih]; simp [*]
      · simp [mread]
    · have hget : a + 1 ≤ b → (x :: bs).getD (b - a) 0 = bs.getD (b - (a + 1)) 0 := by
        intro h
        obtain ⟨n, rfl⟩ : ∃ n, b = a + 1 + n := ⟨b - (a + 1), by omega⟩
        simp [show a + 1 + n - a = n + 1 by omega]
      have : (if a + 1 ≤ b ∧ b < a + 1 + bs.length then bs.getD (b - (a + 1)) 0 else Mem.blank) =
          if a ≤ b ∧ b < a + (x :: bs).length then (x :: bs).getD (b - a) 0 else Mem.blank := by
        simp only [List.length_cons]
        by_cases h : a + 1 ≤ b ∧ b < a + 1 + bs.length
        · rw [if_pos h, if_pos (by omega), hget h.1]
        · rw [if_neg h, if_neg (by omega)]
      split
      · rw [ih, this]
      · simp only [mread, hab, if_false]; rw [ih, this]

/-- A read after a store: the stored byte inside its range, the old byte outside. -/
theorem mread_mwrites (m : Mem) (a : Nat) (bs : List Byte) (b : Nat) :
    mread (mwrites m a bs) b = if a ≤ b ∧ b < a + bs.length then bs.getD (b - a) 0 else mread m b := by
  unfold mwrites
  have h1 := mread_filter m (fun x => decide (x < a)) b
  have h2 := mread_filter m (fun x => decide (a + bs.length ≤ x)) b
  simp only [decide_eq_true_eq] at h1 h2
  rw [mread_append, mread_append]
  by_cases hb : b < a
  · have hn : ¬ (a ≤ b ∧ b < a + bs.length) := by omega
    have hc : (cellsAt bs a).any (fun c => c.1 == b) = false := by
      simp only [List.any_eq_false, beq_iff_eq]; intro c hc he; have := mem_cellsAt hc; omega
    have hr : (m.filter (fun c => decide (a + bs.length ≤ c.1))).any (fun c => c.1 == b) = false := by
      simp only [List.any_eq_false, beq_iff_eq, List.mem_filter, decide_eq_true_eq]; intro c hc he; omega
    simp only [List.any_append, hc, Bool.or_false, hn, if_false]
    by_cases hp : (m.filter (fun c => decide (c.1 < a))).any (fun c => c.1 == b) = true
    · simp [hp, h1, hb]
    · have hp' := Bool.eq_false_iff.2 hp
      have := mread_none hp'
      rw [h1, if_pos hb] at this
      simp only [hp', mread_none hr, this]
      simp
  · have hl : (m.filter (fun c => decide (c.1 < a))).any (fun c => c.1 == b) = false := by
      simp only [List.any_eq_false, beq_iff_eq, List.mem_filter, decide_eq_true_eq]; intro c hc he; omega
    simp only [List.any_append, hl, Bool.false_or]
    by_cases hin : b < a + bs.length
    · have hr : (m.filter (fun c => decide (a + bs.length ≤ c.1))).any (fun c => c.1 == b) = false := by
        simp only [List.any_eq_false, beq_iff_eq, List.mem_filter, decide_eq_true_eq]; intro c hc he; omega
      have hc := mread_cellsAt bs a b
      have hin2 : a ≤ b ∧ b < a + bs.length := ⟨by omega, hin⟩
      rw [if_pos hin2] at hc
      rw [if_pos hin2]
      by_cases hp : (cellsAt bs a).any (fun c => c.1 == b) = true
      · rw [if_pos hp, if_neg (by simp [hl]), hc]
      · have hp' := Bool.eq_false_iff.2 hp
        have := mread_none hp'
        rw [if_neg hp, mread_none hr, ← hc, this]
    · have hc : (cellsAt bs a).any (fun c => c.1 == b) = false := by
        simp only [List.any_eq_false, beq_iff_eq]; intro c hc he; have := mem_cellsAt hc; omega
      have hn : ¬ (a ≤ b ∧ b < a + bs.length) := by omega
      simp [hc, hn, h2, show a + bs.length ≤ b by omega]

end Sys2Proof.Machine
end

