-- ==== Sys2Proof/Laws/Path.lean ====
section
/-! SUPPORT. The die-to-die counters: counting flits over the interfaces changes registers of the hub block from 0x1300000 on and nothing else. -/
namespace Sys2Proof.Machine

open Sys2Proof

theorem tset_filter_of_not {α : Type} (t : Tbl α) (k : Nat) (v : α) (p : Nat → Bool) (h : p k = false) :
    (tset t k v).filter (fun e => p e.1) = t.filter (fun e => p e.1) := by
  induction t with
  | nil => simp [tset, h]
  | cons x r ih =>
    obtain ⟨j, u⟩ := x
    simp only [tset]
    split
    · subst_vars; simp [h]
    · split <;> simp [List.filter_cons, h, ih]

/-- Two states that differ in registers of the die-to-die counters alone. -/
def DdOnly (s t : State) : Prop :=
  noDd t = noDd s ∧ ∀ o, o < 0x1300000 → hubReg t.hub o = hubReg s.hub o

theorem DdOnly.refl (s : State) : DdOnly s s := ⟨rfl, fun _ _ => rfl⟩

theorem DdOnly.trans {s t u : State} (a : DdOnly s t) (b : DdOnly t u) : DdOnly s u :=
  ⟨b.1.trans a.1, fun o h => (b.2 o h).trans (a.2 o h)⟩

theorem setHubReg_ddOnly (s : State) {o : Nat} (v : Word) (h : 0x1300000 ≤ o) :
    DdOnly s { s with hub := s.hub.setReg o v } := by
  have ne (p : Nat) (hp : p < 0x1300000) : o ≠ p := Nat.ne_of_gt (Nat.lt_of_lt_of_le hp h)
  refine ⟨?_, fun p hp => tget_tset_ne _ _ _ (ne p hp)⟩
  have hk : decide (o < 0x1000000) = false := decide_eq_false (Nat.not_lt.mpr (by omega))
  have e : (tset s.hub.regs o v).filter (fun e => decide (e.1 < 0x1000000)) =
      s.hub.regs.filter (fun e => decide (e.1 < 0x1000000)) :=
    tset_filter_of_not s.hub.regs o v (fun k => decide (k < 0x1000000)) hk
  unfold noDd Hub.setReg
  exact congrArg (fun r : Regs => { s with hub := { s.hub with regs := r } }) e

theorem ddOff_ge (d i : Nat) : 0x1300000 ≤ ddOff d i := by simp only [ddOff]; omega

/-- What `ddMesh` can change (R398): the counters of the die-to-die interfaces, no other register and no other field. -/
theorem ddMesh_ddOnly (s : State) (src dst : Node) (n : Nat) : DdOnly s (ddMesh s src dst n) := by
  have tx (t : State) (d i : Nat) :
      DdOnly t { t with hub := t.hub.setReg (ddOff d i) (hubReg t.hub (ddOff d i) + w32 n) } :=
    setHubReg_ddOnly t _ (ddOff_ge d i)
  have rx (t : State) (d i : Nat) :
      DdOnly t { t with hub := t.hub.setReg (ddOff d i + 4) (hubReg t.hub (ddOff d i + 4) + w32 n) } :=
    setHubReg_ddOnly t _ (Nat.le_add_right_of_le (ddOff_ge d i))
  have path (l : List (Nat × Nat)) : ∀ t : State, DdOnly t
      (l.foldl (fun t e =>
        let a : State := { t with hub := t.hub.setReg (ddOff e.1 (ddSlot e.1 e.2)) (hubReg t.hub (ddOff e.1 (ddSlot e.1 e.2)) + w32 n) }
        { a with hub := a.hub.setReg (ddOff e.2 (ddSlot e.1 e.2) + 4) (hubReg a.hub (ddOff e.2 (ddSlot e.1 e.2) + 4) + w32 n) }) t) := by
    induction l with
    | nil => exact DdOnly.refl
    | cons e r ih => exact fun t => ((tx t e.1 (ddSlot e.1 e.2)).trans (rx _ e.2 (ddSlot e.1 e.2))).trans (ih _)
  simp only [ddMesh]
  split
  · exact (path _ s).trans (tx _ _ 0)
  · exact (path _ s).trans (rx _ _ 0)
  · exact path _ s

/-- What `ddTrip` can change: a request and its answer count, nothing else. -/
theorem ddTrip_ddOnly (s : State) (src dst : Node) (a b : Nat) : DdOnly s (ddTrip s src dst a b) :=
  (ddMesh_ddOnly s src dst a).trans (ddMesh_ddOnly _ dst src b)

end Sys2Proof.Machine
end

