-- ==== Sys2Proof/Laws/Scalar.lean ====
section
/-! SUPPORT. Instructions that write one scalar register or one predicate: what a run that is ready makes of the state. -/
namespace Sys2Proof

open Machine

variable {s : State} {c : CoreIx} {id : RunId} {r : Run} {g : Guard} {us : List (BitVec 5)} {eff : Site → Act} {bad : Bool}

theorem pastWord_s (r : Run) (at_ : Nat) : (pastWord r at_).1.s = r.s := by unfold pastWord; dsimp only; split <;> rfl
theorem pastWord_p (r : Run) (at_ : Nat) : (pastWord r at_).1.p = r.p := by unfold pastWord; dsimp only; split <;> rfl
theorem pastWord_setS (r : Run) (u : Tbl Word) (at_ : Nat) :
    pastWord { r with s := u } at_ = ({ (pastWord r at_).1 with s := u }, (pastWord r at_).2) := by
  unfold pastWord; dsimp only; split <;> rfl
theorem pastWord_setP (r : Run) (u : BitVec 8) (at_ : Nat) :
    pastWord { r with p := u } at_ = ({ (pastWord r at_).1 with p := u }, (pastWord r at_).2) := by
  unfold pastWord; dsimp only; split <;> rfl

/-- A run that is ready and writes a scalar register that it may write. -/
theorem issue_putS {rd : BitVec 5} {v : Word} (h : Ready s c id r g us) (hb : bad = false) (hm : MayWrite id rd) (hn : HasNext r)
    (he : eff (theSite s c id r) = putS (theSite s c id r) rd v) :
    ∃ t, issue c id g bad us eff s = .next t ∧ WroteS s t c id r rd v := by
  refine ⟨_, issue_ready h hb, ?_⟩
  have hr := mayIssue_runOf h.1
  have hbad : badRd (theSite s c id r) rd = false := by
    rcases hm with rfl | hm
    · rfl
    · simp [badRd, Nat.not_le.mpr hm]
  rw [he]
  simp only [putS, hbad, wrS]
  by_cases hlt : rd.toNat < 24
  · simp only [hlt, if_true, Bool.false_eq_true, if_false, doAct_go_seq, pastWord_setS]
    have hn' : (pastWord r r.pc.toNat).2 = false := hn
    simp only [hn', settle_false]
    refine ⟨?_, _, onlyRun_same _⟩
    intro n
    simp only [readS, hr, getCore_setCore, runOf_setRun_issued, issued_active]
    rw [ctxOf_issued]
    by_cases hx : n.toNat < 24
    · simp only [rdS, hx, if_true, tget_tset]
      by_cases e : n = rd
      · subst e; simp
      · have : rd.toNat ≠ n.toNat := fun e' => e (BitVec.eq_of_toNat_eq e'.symm)
        simp [e, this]
    · have : n ≠ rd := by rintro rfl; exact hx hlt
      simp only [rdS, hx, if_false, this]
      split <;> rfl
  · have hid : id = .setup := by rcases hm with rfl | hm <;> [rfl; exact absurd hm hlt]
    subst hid
    simp only [hlt, if_false, Bool.false_eq_true, doAct_go_seq]
    have hn' : (pastWord r r.pc.toNat).2 = false := hn
    simp only [hn', settle_false]
    refine ⟨?_, (pastWord r r.pc.toNat).1.s, onlyRun_settle _ _⟩
    intro n
    simp only [readS, hr, getCore_setCore, runOf_setRun_issued, issued_active]
    rw [ctxOf_issued]
    by_cases hx : n.toNat < 24
    · have : n ≠ rd := by rintro rfl; exact hlt hx
      simp [rdS, hx, this, pastWord_s]
    · simp only [rdS, hx, if_false, Core.setCtx, true_and, if_true, ctxOf, tget_tset_self, tget_tset]
      by_cases e : n = rd
      · subst e; simp
      · have : rd.toNat ≠ n.toNat := fun e' => e (BitVec.eq_of_toNat_eq e'.symm)
        simp [e, this]

/-- A run that is ready and writes a predicate. -/
theorem issue_putP {pd : BitVec 3} {v : Bool} (h : Ready s c id r g us) (hb : bad = false) (hn : HasNext r)
    (he : eff (theSite s c id r) = putP (theSite s c id r) pd v) :
    ∃ t, issue c id g bad us eff s = .next t ∧ WroteP s t c id r pd v := by
  refine ⟨_, issue_ready h hb, ?_⟩
  have hr := mayIssue_runOf h.1
  have hn' : (pastWord r r.pc.toNat).2 = false := hn
  rw [he]
  have hw : wrP r pd v = { r with p := if pd = 0 then r.p else setBit r.p pd.toNat v } := by unfold wrP; split <;> rfl
  simp only [putP, hw, doAct_go_seq, pastWord_setP, hn', settle_false]
  refine ⟨?_, ?_, _, onlyRun_same _⟩
  · intro n
    simp only [readP, hr, getCore_setCore, runOf_setRun_issued, rdP]
    by_cases e : pd = 0
    · simp [e]
    · have hb : ∀ m : BitVec 3, (setBit r.p pd.toNat v).getLsbD m.toNat = if m = pd then v else r.p.getLsbD m.toNat := by
        intro m
        by_cases em : m = pd
        · subst em; simpa [bit] using bit_setBit_self r.p v (i := m.toNat) (by have := m.isLt; omega)
        · have : pd.toNat ≠ m.toNat := fun e' => em (BitVec.eq_of_toNat_eq e'.symm)
          rw [if_neg em]
          simpa [bit] using bit_setBit_ne r.p v (i := pd.toNat) (j := m.toNat) this
      simp only [e, if_false, hb, ne_eq, not_false_eq_true, and_true]
      by_cases e2 : n = pd
      · subst e2; simp [show ¬ n = 0#3 from e]
      · simp [e2]
  · intro n
    simp only [readS, hr, getCore_setCore, runOf_setRun_issued, issued_active, rdS, pastWord_s]
    rw [ctxOf_issued]
    split <;> [rfl; (split <;> rfl)]

end Sys2Proof
end

