-- ==== Sys2Proof/Laws/Trap.lean ====
section
/-! SUPPORT. Trace records, interrupts and traps: what each can change. -/
namespace Sys2Proof.Machine

/-! ### Free cycle counts, trace records -/
@[simp] theorem clCycles_cores (s : State) (n : Nat) : (clCycles s n).2.cores = s.cores := rfl
@[simp] theorem clCycles_rest (s : State) (n : Nat) :
    { (clCycles s n).2 with clusters := s.clusters, free := s.free } = s := rfl

/-- A record changes only its source's buffer, TRC_LOST of its partition and the free counter. -/
theorem pushTrace_rest (s : State) (p n : Nat) (t : TraceRec) :
    { pushTrace s p n t with clusters := s.clusters, parts := s.parts } = s := by
  dsimp only [pushTrace]; repeat' split
  all_goals rfl

theorem emitTrace_rest (s : State) (p n : Nat) (t : TraceRec) :
    { emitTrace s p n t with clusters := s.clusters, parts := s.parts, free := s.free } = s := by
  dsimp only [emitTrace]; split
  · have h := pushTrace_rest (clCycles s n).2 p n
      { t with part := p, cyc := (clCycles s n).1.setWidth 32, seq := fld (clReg (getCl s n) 0xF00) 15 0 }
    generalize pushTrace _ _ _ _ = u at h ⊢
    have h1 := congrArg State.cores h
    have h2 := congrArg State.mcs h
    have h3 := congrArg State.lnks h
    have h4 := congrArg State.hub h
    have h5 := congrArg State.mesh h
    have h6 := congrArg State.outbox h
    have h7 := congrArg State.pending h
    cases u; cases s; simp_all [clCycles]
  · rfl

@[simp] theorem emitTrace_cores (s : State) (p n : Nat) (t : TraceRec) : (emitTrace s p n t).cores = s.cores := by have h := congrArg State.cores (emitTrace_rest s p n t); exact h
@[simp] theorem emitTrace_mcs (s : State) (p n : Nat) (t : TraceRec) : (emitTrace s p n t).mcs = s.mcs := by have h := congrArg State.mcs (emitTrace_rest s p n t); exact h
@[simp] theorem emitTrace_lnks (s : State) (p n : Nat) (t : TraceRec) : (emitTrace s p n t).lnks = s.lnks := by have h := congrArg State.lnks (emitTrace_rest s p n t); exact h
@[simp] theorem emitTrace_hub (s : State) (p n : Nat) (t : TraceRec) : (emitTrace s p n t).hub = s.hub := by have h := congrArg State.hub (emitTrace_rest s p n t); exact h
@[simp] theorem emitTrace_mesh (s : State) (p n : Nat) (t : TraceRec) : (emitTrace s p n t).mesh = s.mesh := by have h := congrArg State.mesh (emitTrace_rest s p n t); exact h
@[simp] theorem emitTrace_outbox (s : State) (p n : Nat) (t : TraceRec) : (emitTrace s p n t).outbox = s.outbox := by have h := congrArg State.outbox (emitTrace_rest s p n t); exact h
@[simp] theorem emitTrace_pending (s : State) (p n : Nat) (t : TraceRec) : (emitTrace s p n t).pending = s.pending := by have h := congrArg State.pending (emitTrace_rest s p n t); exact h
@[simp] theorem getCore_emitTrace (s : State) (p n : Nat) (t : TraceRec) (c : Nat) : getCore (emitTrace s p n t) c = getCore s c := by
  simp [getCore]

/-- Of a partition's registers a record changes TRC_LOST only. -/
theorem partReg_emitTrace (s : State) (p n : Nat) (t : TraceRec) (q o : Nat) (h : o ≠ 0x2040) :
    partReg (getPart (emitTrace s p n t) q) o = partReg (getPart s q) o := by
  have hd : ∀ u : State, u.parts = s.parts → partReg (getPart (dropTrace u p n) q) o = partReg (getPart s q) o := by
    intro u hu
    simp only [dropTrace, getPart, setPart, setCl, hu]
    by_cases e : p = q
    · subst e; simp [partReg, Part.setReg, tget_tset_ne _ _ _ (Ne.symm h)]
    · simp [tget_tset_ne _ _ _ e]
  dsimp only [emitTrace, pushTrace]
  repeat' split
  all_goals first | rfl | exact hd _ rfl

/-! ### Interrupts -/
theorem partMsg_rest (s : State) (p v : Nat) : { partMsg s p v with parts := s.parts, outbox := s.outbox } = s := by
  dsimp only [partMsg]; repeat' split
  all_goals rfl

theorem raisePart_rest (s : State) (p b : Nat) : { raisePart s p b with parts := s.parts, outbox := s.outbox } = s := by
  dsimp only [raisePart]; split
  · rfl
  · split
    · have h := partMsg_rest (setPart s p ((getPart s p).setReg 0x40 (setBit (partReg (getPart s p) 0x40) b true))) p
        (irqVec (partReg (getPart s p)) 0x48 b)
      generalize partMsg _ _ _ = u at h ⊢
      have h1 := congrArg State.cores h
      have h2 := congrArg State.mcs h
      have h3 := congrArg State.lnks h
      have h4 := congrArg State.hub h
      have h5 := congrArg State.mesh h
      have h6 := congrArg State.clusters h
      have h7 := congrArg State.pending h
      have h8 := congrArg State.free h
      cases u; cases s; simp_all
    · rfl

@[simp] theorem raisePart_cores (s : State) (p b : Nat) : (raisePart s p b).cores = s.cores := by have h := congrArg State.cores (raisePart_rest s p b); exact h
@[simp] theorem raisePart_clusters (s : State) (p b : Nat) : (raisePart s p b).clusters = s.clusters := by have h := congrArg State.clusters (raisePart_rest s p b); exact h
@[simp] theorem raisePart_mcs (s : State) (p b : Nat) : (raisePart s p b).mcs = s.mcs := by have h := congrArg State.mcs (raisePart_rest s p b); exact h
@[simp] theorem raisePart_lnks (s : State) (p b : Nat) : (raisePart s p b).lnks = s.lnks := by have h := congrArg State.lnks (raisePart_rest s p b); exact h
@[simp] theorem raisePart_hub (s : State) (p b : Nat) : (raisePart s p b).hub = s.hub := by have h := congrArg State.hub (raisePart_rest s p b); exact h
@[simp] theorem raisePart_mesh (s : State) (p b : Nat) : (raisePart s p b).mesh = s.mesh := by have h := congrArg State.mesh (raisePart_rest s p b); exact h
@[simp] theorem raisePart_free (s : State) (p b : Nat) : (raisePart s p b).free = s.free := by have h := congrArg State.free (raisePart_rest s p b); exact h
@[simp] theorem raisePart_pending (s : State) (p b : Nat) : (raisePart s p b).pending = s.pending := by have h := congrArg State.pending (raisePart_rest s p b); exact h
@[simp] theorem getCore_raisePart (s : State) (p b c : Nat) : getCore (raisePart s p b) c = getCore s c := by simp [getCore]
@[simp] theorem getCl_raisePart (s : State) (p b c : Nat) : getCl (raisePart s p b) c = getCl s c := by simp [getCl]
@[simp] theorem getMc_raisePart (s : State) (p b c : Nat) : getMc (raisePart s p b) c = getMc s c := by simp [getMc]
@[simp] theorem getLnk_raisePart (s : State) (p b c : Nat) : getLnk (raisePart s p b) c = getLnk s c := by simp [getLnk]

theorem partReg_partMsg (s : State) (p v q o : Nat) : partReg (getPart (partMsg s p v) q) o = partReg (getPart s q) o := by
  dsimp only [partMsg]
  repeat' split
  all_goals first
    | rfl
    | (simp only [getPart, setPart]
       by_cases e : p = q
       · subst e; simp [partReg]
       · simp [tget_tset_ne _ _ _ e])

/-- R305: what raising a cause does to the partition's registers: its bit of the interrupt status goes to 1. -/
theorem partReg_raisePart (s : State) (p b q o : Nat) :
    partReg (getPart (raisePart s p b) q) o =
      if q = p ∧ o = 0x40 ∧ bit (partReg (getPart s p) 0x40) b = false then setBit (partReg (getPart s p) 0x40) b true
      else partReg (getPart s q) o := by
  dsimp only [raisePart]
  have h : partReg (getPart (setPart s p ((getPart s p).setReg 0x40 (setBit (partReg (getPart s p) 0x40) b true))) q) o =
      if q = p ∧ o = 0x40 then setBit (partReg (getPart s p) 0x40) b true else partReg (getPart s q) o := by
    by_cases e : q = p
    · subst e
      by_cases e2 : o = 0x40
      · subst e2; simp [partReg, Part.setReg]
      · simp [partReg, Part.setReg, tget_tset_ne _ _ _ (Ne.symm e2), e2]
    · simp [getPart, setPart, tget_tset_ne _ _ _ (Ne.symm e), e]
  split
  · simp_all
  · rename_i hb
    split
    · rw [partReg_partMsg, h]; simp [hb]
    · rw [h]; simp [hb]

/-- A cause 0 to 31 stands in the interrupt status once it has been raised. -/
theorem raisePart_stat (s : State) (p b : Nat) (hb : b < 32) : bit (partReg (getPart (raisePart s p b) p) 0x40) b = true := by
  rw [partReg_raisePart]
  split
  · exact bit_setBit_self _ _ _ hb
  · rename_i h; simpa using h

end Sys2Proof.Machine

namespace Sys2Proof

open Machine

/-! ### Fields of words built from numbers -/
theorem fld_w32 (n hi lo : Nat) (h1 : hi < 32) (h2 : lo ≤ hi) : fld (w32 n) hi lo = n / 2 ^ lo % 2 ^ (hi + 1 - lo) := by
  apply Nat.eq_of_testBit_eq
  intro i
  simp only [fld, w32, BitVec.toNat_ofNat, Nat.testBit_mod_two_pow, Nat.testBit_shiftRight, ← Nat.shiftRight_eq_div_pow]
  by_cases h : i < hi + 1 - lo
  · have : lo + i < 32 := by omega
    simp [h, this]
  · simp [h]

theorem bit_w32 (n i : Nat) (h : i < 32) : bit (w32 n) i = decide (n / 2 ^ i % 2 = 1) := by
  rw [bit, w32, BitVec.getLsbD_ofNat, Nat.testBit_eq_decide_div_mod_eq]; simp [h]

/-! ### Registers of a core's page -/
theorem coreReg_setReg (k : Core) (o p : Nat) (v : Word) : coreReg (k.setReg o v) p = if o = p then v else coreReg k p := by
  simp [coreReg, Core.setReg, tget_tset]

theorem coreReg_count (k : Core) (o n p : Nat) : coreReg (k.count o n) p = if o = p then coreReg k p + w32 n else coreReg k p := by
  unfold Core.count; rw [coreReg_setReg]; split <;> simp_all

/-! ### Traps (R89) -/
/-- The core after a trap, but for the hold on the context (R89). -/
abbrev trapCore (k : Core) (id : RunId) (r : Run) (cause info : Nat) : Core :=
  if bit (coreReg k 0x004) 0 then k.setReg 0x004 (setFld (coreReg k 0x004) 23 16 (satAdd 255 (fld (coreReg k 0x004) 23 16) 1))
  else ((k.setReg 0x008 (w32 (cause + r.ctx % 4 * 2 ^ 8 + RunId.num id * 2 ^ 10 + (b2n (RunId.isSetup id)) * 2 ^ 13 + r.pc.toNat * 2 ^ 16))).setReg
    0x00C (w32 (r.tg.toNat + info % 65536 * 2 ^ 16))).setReg 0x004 (setBit (coreReg k 0x004) 0 true)

theorem getCore_takeTrap (s : State) (c : Nat) (id : RunId) (r : Run) (cause info : Nat) :
    getCore (takeTrap s c id r cause info) c =
      let k1 := trapCore (getCore s c) id r cause info
      if (tfind k1.traps r.ctx).isSome then k1 else { k1 with traps := tset k1.traps r.ctx { run := id, cause := cause } } := by
  dsimp only [takeTrap]
  rw [getCore_emitTrace, getCore_raisePart, getCore_setCore]

theorem getCore_takeTrap_ne (s : State) {c d : Nat} (id : RunId) (r : Run) (cause info : Nat) (h : d ≠ c) :
    getCore (takeTrap s c id r cause info) d = getCore s d := by
  simp [takeTrap, getCore_setCore_ne _ _ (Ne.symm h)]

theorem coreReg_takeTrap (s : State) (c : Nat) (id : RunId) (r : Run) (cause info o : Nat) :
    coreReg (getCore (takeTrap s c id r cause info) c) o = coreReg (trapCore (getCore s c) id r cause info) o := by
  rw [getCore_takeTrap]; dsimp only; split <;> rfl

/-- Everything that taking a trap does, for a cause and an INFO that fit their fields. -/
theorem takeTrap_took (s : State) (c : CoreIx) (id : RunId) (r : Run) (cause info : Nat) (hc : cause < 256) (hi : info < 65536) :
    TookTrap s (trapState s c id r cause info) c id r cause info := by
  have hpc : r.pc.toNat < 512 := r.pc.isLt
  have htg : r.tg.toNat < 65536 := r.tg.isLt
  have hnum : RunId.num id < 8 := by cases id <;> simp [RunId.num]
  have hs : b2n (RunId.isSetup id) < 2 := by cases id <;> simp [RunId.isSetup, b2n]
  have hi' : info % 65536 = info := Nat.mod_eq_of_lt hi
  have hreg : ∀ o, coreReg (getCore (trapState s c id r cause info) c.val) o = coreReg (trapCore (getCore s c.val).issued id r cause info) o := by
    intro o; rw [trapState, coreReg_takeTrap]; simp
  have h4 : coreReg (getCore s c.val).issued 0x004 = coreReg (getCore s c.val) 0x004 := by simp [Core.issued, coreReg_count]
  constructor
  · intro h
    have h8 : coreReg (trapCore (getCore s c.val).issued id r cause info) 0x008 = w32 (cause + r.ctx % 4 * 2 ^ 8 + RunId.num id * 2 ^ 10 + (b2n (RunId.isSetup id)) * 2 ^ 13 + r.pc.toNat * 2 ^ 16) := by
      simp [trapCore, h4, h, coreReg_setReg]
    have hC : coreReg (trapCore (getCore s c.val).issued id r cause info) 0x00C = w32 (r.tg.toNat + info % 65536 * 2 ^ 16) := by
      simp [trapCore, h4, h, coreReg_setReg]
    have hb : decide ((cause + r.ctx % 4 * 2 ^ 8 + RunId.num id * 2 ^ 10 + (b2n (RunId.isSetup id)) * 2 ^ 13 + r.pc.toNat * 2 ^ 16) / 2 ^ 13 % 2 = 1) = RunId.isSetup id := by
      have : (cause + r.ctx % 4 * 2 ^ 8 + RunId.num id * 2 ^ 10 + (b2n (RunId.isSetup id)) * 2 ^ 13 + r.pc.toNat * 2 ^ 16) / 2 ^ 13 % 2 = b2n (RunId.isSetup id) := by omega
      rw [this]; cases RunId.isSetup id <;> rfl
    simp only [hreg, h8, hC, fld_w32 _ _ _ (show (7 : Nat) < 32 by decide) (show (0 : Nat) ≤ 7 by decide), fld_w32 _ 9 8 (by decide) (by decide),
      fld_w32 _ 12 10 (by decide) (by decide), fld_w32 _ 24 16 (by decide) (by decide), fld_w32 _ 15 0 (by decide) (by decide),
      fld_w32 _ 31 16 (by decide) (by decide), bit_w32 _ 13 (by decide), hb, true_and]
    refine ⟨?_, ?_, ?_, ?_, ?_, ?_⟩ <;> omega
  · intro h
    simp only [hreg]
    have h16 : fld (coreReg (getCore s c.val) 4) 23 16 < 256 := by unfold fld; omega
    simp only [trapCore, h4, h, if_true, coreReg_setReg]
    refine ⟨by simp [Core.issued, coreReg_count], by simp [Core.issued, coreReg_count], ?_⟩
    rw [fld_setFld_self _ _ _ _ (by decide)]
    unfold satAdd; split <;> omega
  · rw [hreg]
    by_cases h : bit (coreReg (getCore s c.val) 0x004) 0
    · simp only [trapCore, h4, h, if_true, coreReg_setReg]
      rw [bit_setFld]; simp [h]
    · simp only [trapCore, h4, h]
      simp
  · rw [trapState, getCore_takeTrap]; dsimp only
    split
    · assumption
    · simp
  · rw [trapState, getCore_takeTrap, getCore_setCore]; dsimp only
    split <;> (dsimp only [trapCore]; split <;> rfl)
  · intro o h1 h2 h3
    rw [hreg]
    have : coreReg (trapCore (getCore s c.val).issued id r cause info) o = coreReg (getCore s c.val).issued o := by
      dsimp only [trapCore]; split <;> simp [coreReg_setReg, Ne.symm h1, Ne.symm h2, Ne.symm h3]
    rw [this, Core.issued, coreReg_count]
    by_cases e : o = 0x094
    · subst e; rfl
    · simp [e, Ne.symm e]
  · have hp : ∀ (u : State) (p : Nat) (t : TraceRec), bit (partReg (getPart (emitTrace (raisePart u p 0) p (c.val / 32) t) p) 0x40) 0 = true := by
      intro u p t; rw [partReg_emitTrace _ _ _ _ _ _ (by decide)]; exact raisePart_stat _ _ _ (by decide)
    dsimp only [trapState, takeTrap]
    rw [getCore_setCore]
    have : ctxOf (getCore s c.val).issued r.ctx = ctxOf (getCore s c.val) r.ctx := rfl
    rw [this]
    exact hp _ _ _
  · intro d hd
    rw [trapState, getCore_takeTrap_ne _ _ _ _ _ hd, getCore_setCore_ne _ _ (Ne.symm hd)]
  · simp [trapState, takeTrap]

end Sys2Proof
end

