-- ==== Sys2Proof/Tests/Slice0.lean ====
section
/-! SUPPORT. Small tests, and for each statement that has hypotheses states and operands that meet them: theorem `witness_<part>` answers for the part of a
statement that bears that name. -/
namespace Sys2Proof.Tests

open Machine

/-! ### States and operands -/
def c0 : CoreIx := ⟨0, by decide⟩
def cl0 : ClIx := ⟨0, by decide⟩
def l0 : LpIx := ⟨0, by decide⟩
def m0 : McIx := ⟨0, by decide⟩
def p0 : PartIx := ⟨0, by decide⟩
/-- The guard that always holds. -/
def gT : Guard := { gn := false, gp := 0 }
/-- A guard that does not hold where p1 is 0. -/
def gF : Guard := { gn := false, gp := 1 }
/-- A firing of slot 0 at word 2, tag 5. -/
def r0 : Run := { uid := 1, ctx := 0, tg := 5, pc := 2, s := [], p := 0, loops := [], held := [], phase := .issuing, nan := none }
def x0 : CtxState := { CtxState.reset with stn := some { part := 0, entry := 0 }, ncores := 1 }
def k0 : Core := { Core.reset with ctxs := [(0, x0)], nextUid := 2 }
def atCore (k : Core) : State := { State.reset with cores := [(0, k)] }
/-- A state in which firing `r` of core 0 stands in slot 0. -/
def sF (r : Run) : State := atCore { k0 with firings := [(0, r)] }
/-- One in which `r` is the setup run of core 0. -/
def sS (r : Run) : State := atCore { k0 with ctxs := [(0, { x0 with setup := some r })] }
def s0 : RunId := .slot 0
def fA : FmtA := { g := gT, rd := 23, rs1 := 31, rs2 := 1, pd := 0, rsv := 0 }
def fB : FmtB := { g := gT, rd := 23, rs1 := 31, imm := 0xFFFFFFFF, pd := 0, rsv := 0 }
def fC : FmtC := { g := gT, r1 := 0, target := 2, imm := 0, rsv := 0 }
def fD : FmtD := { g := gT, rd := 23, rs1 := 0, imm := 0, rsv := 0 }
def fE : FmtE := { g := gT, rd := 0, rs1 := 0, rs2 := 0, t := false, port := 0, mask := 0, entry := 0, rsv := 0 }
def fJ : FmtJ := { g := gT, imm := 0, rsv := 0 }
def fH : FmtH := { g := gT, mode := 2, ctx := 3, port := 0, rs2 := 0, t := false, rsv := 0 }
def fG : FmtG := { g := gT, rd := 0, rs1 := 1, rs2 := 2, pd := 0, cond := 0, timeout := 0, rsv := 0 }

/-- What the host says of a step's outcome, for tests. -/
def goes (o : Out) : Bool := match o with | .next _ => true | _ => false

/-- Partition 0, open, with all of cluster 0, port, station and host-class core 0. -/
def pOpen : Part :=
  { Part.reset with regs := [(0x10, 1)], grants := ⟨[(0, 0xFFFFFFFF)], 0xF, [(0, BitVec.allOnes 128)], 1, 1, 1⟩ }
def hR : Hub := { Hub.reset with regs := [(0x4, 1)], pf := { FnState.reset with cfg := [(0x148, 1), (0x150, 8)] } }
/-- The device ready, with eight virtual functions and partition 0. -/
def sR : State := { State.reset with parts := [(0, pOpen)], hub := hR }
/-- The same with every oscillator locked. -/
def sL : State := { sR with hub := { hR with regs := [(0x4, 1), (0x1024, 0xFFFFFFFF)] } }
/-! ### Witnesses: scalar and control -/
theorem witness_ScalarArithmetic :
    (Ready (sF r0) c0 s0 r0 fA.g [fA.rd, fA.rs1, fA.rs2] ∧ fA.rsv = 0 ∧ fA.pd = 0 ∧ MayWrite s0 fA.rd ∧ HasNext r0) ∧
    (Ready (sS r0) c0 .setup r0 fA.g [31, 0, 0] ∧ MayWrite .setup 31 ∧ HasNext r0) ∧
    (Ready (sF r0) c0 s0 r0 fB.g [fB.rd, fB.rs1] ∧ fB.rsv = 0 ∧ fB.pd = 0 ∧ MayWrite s0 fB.rd) := by decide

theorem witness_ScalarLogicAndShift :
    (Ready (sF { r0 with pc := 510 }) c0 s0 { r0 with pc := 510 } fA.g [fA.rd, fA.rs1, fA.rs2] ∧ fA.rsv = 0 ∧ fA.pd = 0 ∧ MayWrite s0 fA.rd ∧ HasNext { r0 with pc := 510 }) ∧
    (Ready (sF r0) c0 s0 r0 fB.g [fB.rd, fB.rs1] ∧ fB.rsv = 0 ∧ fB.pd = 0 ∧ MayWrite s0 fB.rd) := by decide

theorem witness_ScalarSelectAndMove :
    (Ready (sF r0) c0 s0 r0 fA.g [fA.rd, fA.rs1, fA.rs2] ∧ fA.rsv = 0 ∧ MayWrite s0 fA.rd ∧ HasNext r0) ∧
    (let f : FmtB := { fB with rs1 := 0 }; Ready (sF r0) c0 s0 r0 f.g [f.rd] ∧ f.rsv = 0 ∧ f.pd = 0 ∧ f.rs1 = 0 ∧ MayWrite s0 f.rd) ∧
    (let f : FmtA := { fA with rs1 := 8, rs2 := 0 }; Ready (sF r0) c0 s0 r0 f.g [f.rd] ∧ f.rsv = 0 ∧ f.pd = 0 ∧ f.rs2 = 0 ∧ f.rs1.toNat < 9 ∧ MayWrite s0 f.rd ∧ f.rs1 ≠ 7) := by decide

theorem witness_Comparisons :
    (let f : FmtA := { fA with rd := 0, pd := 7 }; Ready (sF r0) c0 s0 r0 f.g [f.rs1, f.rs2] ∧ f.rsv = 0 ∧ f.rd = 0 ∧ HasNext r0) ∧
    (let f : FmtB := { fB with rd := 0, pd := 0 }; Ready (sF r0) c0 s0 r0 f.g [f.rs1] ∧ f.rsv = 0 ∧ f.rd = 0 ∧ HasNext r0) := by decide

theorem witness_PredicateLogic :
    (let f : FmtA := { fA with rd := 0, rs1 := 7, rs2 := 0, pd := 7 }; Ready (sF r0) c0 s0 r0 f.g [] ∧ f.rsv = 0 ∧ f.rd = 0 ∧ f.rs1.toNat < 8 ∧ f.rs2.toNat < 8 ∧ f.rs2 = 0 ∧ HasNext r0) ∧
    runOf (getCore (sF r0) c0.val) s0 = some r0 := by decide

theorem witness_FiringMayNotWriteShared :
    (let f : FmtA := { fA with rd := 24 }; 24 ≤ (24 : BitVec 5).toNat ∧ f.rd = 24 ∧ f.rsv = 0 ∧ f.pd = 0 ∧ Ready (sF r0) c0 (.slot 0) r0 f.g [f.rd, f.rs1, f.rs2]) ∧
    (let f : FmtB := { fB with rd := 24, rs1 := 0 }; f.rd = 24 ∧ f.rsv = 0 ∧ f.pd = 0 ∧ f.rs1 = 0 ∧ Ready (sF r0) c0 (.slot 0) r0 f.g [f.rd, f.rs1] ∧
      awaitsCount (getCore (sF r0) c0.val) r0.uid [f.rd] = false) := by decide

theorem witness_BeforeEveryInstruction :
    (woferOf (.add c0 s0 fA) = some (c0, s0, gT) ∧ mayIssue State.reset c0.val s0 = none) ∧
    (let r : Run := { r0 with nan := some 7 }; mayIssue (sF r) c0.val s0 = some r ∧ r.nan = some 7 ∧ bit (coreReg (getCore (sF r) c0.val) 0x004) 0 = false) ∧
    (mayIssue (sF r0) c0.val s0 = some r0 ∧ r0.nan = none ∧ reservedSet (.add c0 s0 { fA with rsv := 1 }) = true) ∧
    (woferOf (.add c0 s0 { fA with g := gF }) = some (c0, s0, gF) ∧ mayIssue (sF r0) c0.val s0 = some r0 ∧ guardOn gF r0 = false ∧ HasNext r0) ∧
    (let s := atCore { k0 with firings := [(0, r0)], prog := [(2, 0xFC00000000000000)] }; mayIssue s c0.val s0 = some r0 ∧
      wordUndefined (fetchWord (getCore s c0.val) r0) = true) := by decide

theorem witness_Branches :
    (fC.rsv = 0 ∧ fC.imm = 0 ∧ fC.r1 = 0 ∧ Ready (sF r0) c0 s0 r0 fC.g [] ∧ 2 ≤ fC.target.toNat) ∧
    (let f : FmtC := { fC with target := 1 }; f.rsv = 0 ∧ f.imm = 0 ∧ f.r1 = 0 ∧ f.target.toNat < 2 ∧ Ready (sF r0) c0 s0 r0 f.g [f.r1] ∧ MayWrite s0 f.r1) ∧
    (let r : Run := { r0 with s := [(1, 511)] }; let f : FmtC := { fC with r1 := 1, target := 0 }
     f.target = 0 ∧ Ready (sF r) c0 s0 r f.g [f.r1] ∧ 2 ≤ (readS (sF r) c0 s0 f.r1).toNat ∧ (readS (sF r) c0 s0 f.r1).toNat < 512) ∧
    (Ready (sF r0) c0 s0 r0 gT [25] ∧ ¬ MayWrite s0 25 ∧ ¬ fC.target.toNat < 2) ∧
    (let r : Run := { r0 with s := [(1, 512)] }; Ready (sF r) c0 s0 r gT [1] ∧ 512 ≤ (readS (sF r) c0 s0 1).toNat) := by decide

theorem witness_EndOfWord :
    (Ready (sF { r0 with pc := 510 }) c0 s0 { r0 with pc := 510 } gT [] ∧ fJ.rsv = 0 ∧ fJ.imm = 0) ∧
    (let r : Run := { r0 with loops := [⟨1, 3, 2⟩] }; Ready (sF r) c0 s0 r gT [] ∧ (3 : BitVec 9) ≠ r.pc) ∧
    (let r : Run := { r0 with loops := [⟨1, 2, 2⟩] }; Ready (sF r) c0 s0 r gT []) ∧
    (let r : Run := { r0 with loops := [⟨1, 2, 1⟩, ⟨1, 2, 2⟩] }; Ready (sF r) c0 s0 r gT []) ∧
    (let r : Run := { r0 with loops := [⟨1, 2, 1⟩] }; Ready (sF r) c0 s0 r gT []) ∧
    (let r : Run := { r0 with pc := 511 }; Ready (sF r) c0 s0 r gT [] ∧ bit (coreReg (getCore (sF r) c0.val) 0x004) 0 = false) := by decide

theorem witness_Loops :
    (Ready (sF r0) c0 s0 r0 gT [] ∧ r0.loops.length < 2 ∧ r0.pc.toNat < 3 ∧ ({ fC with target := 3, imm := 1 } : FmtC).rsv = 0) ∧
    (let r : Run := { r0 with loops := [⟨1, 9, 1⟩, ⟨1, 9, 1⟩] }; Ready (sF r) c0 s0 r gT [] ∧ 2 ≤ r.loops.length ∧ r.pc.toNat < 3) ∧
    (let r : Run := { r0 with s := [(1, 1)] }; Ready (sF r) c0 s0 r gT [1] ∧ (readS (sF r) c0 s0 1).toNat ≠ 0) ∧
    (pastWord r0 3).2 = false ∧ ¬ r0.pc.toNat < 2 ∧ r0.loops = [] ∧
    (let r : Run := { r0 with loops := [⟨1, 510, 1⟩] }; Ready (sF r) c0 s0 r gT [] ∧ (510 : BitVec 9).toNat < 511) := by decide

theorem witness_LocalLoads :
    let f : FmtD := { fD with imm := 0x3FFFC }
    Ready (sF r0) c0 s0 r0 f.g [f.rd, f.rs1] ∧ f.rsv = 0 ∧ MayWrite s0 f.rd ∧ HasNext r0 ∧ addrD (sF r0) c0 s0 f % 4 = 0 ∧
      addrD (sF r0) c0 s0 f + 4 ≤ 0x40000 ∧ accBlock (getCore (sF r0) c0.val) [(addrD (sF r0) c0 s0 f, 4)] = none := by decide

theorem witness_LocalStores :
    let f : FmtD := { fD with imm := 0x3FFFF }
    Ready (sF r0) c0 s0 r0 f.g [f.rd, f.rs1] ∧ f.rsv = 0 ∧ HasNext r0 ∧ addrD (sF r0) c0 s0 f % 1 = 0 ∧
      addrD (sF r0) c0 s0 f + 1 ≤ 0x40000 ∧ accBlock (getCore (sF r0) c0.val) [(addrD (sF r0) c0 s0 f, 1)] = none := by decide

theorem witness_LocalAccessStops :
    (Ready (sF r0) c0 s0 r0 gT [fD.rd, fD.rs1] ∧ MayWrite s0 fD.rd ∧ addrD (sF r0) c0 s0 { fD with imm := 2 } % 4 ≠ 0) ∧
    (addrD (sF r0) c0 s0 { fD with imm := 0x40000 } % 4 = 0 ∧ addrD (sF r0) c0 s0 { fD with imm := 0x40000 } + 4 > 0x40000) ∧
    (let a : Access := { seq := 0, uid := 9, ctx := 0, ranges := [(0, 4)], tier := 0, ch := 0 }
     let s : State := atCore { k0 with firings := [(0, r0)], accs := [a], nextSeq := 1 }
     Ready s c0 s0 r0 gT [fD.rd, fD.rs1] ∧ addrD s c0 s0 fD % 4 = 0 ∧ accBlock (getCore s c0.val) [(addrD s c0 s0 fD, 4)] = some a ∧ a.tier = 0) := by decide

def sTrace : State := { sF r0 with parts := [(0, (({ Part.reset with grants := { Part.reset.grants with cores := [(0, 1#32)] } } : Part).setReg 0x2004 1).setReg 0x2020 1 |>.setReg 0x2000 4)] }
theorem witness_NopAndMark :
    (Ready (sF r0) c0 s0 r0 fJ.g [] ∧ fJ.rsv = 0 ∧ HasNext r0 ∧ fJ.imm = 0 ∧ traceOn (sF r0) 0 0 1 = false) ∧
    (Ready sTrace c0 s0 r0 fJ.g [] ∧ traceOn sTrace (ctxPart (ctxOf (getCore sTrace 0) 0)) 0 1 = true ∧ (getCl sTrace 0).trace.length < 16 ∧ (getCl sTrace 0).dropped = 0) := by decide

theorem witness_TrapEntry : Ready (sF r0) c0 s0 r0 fJ.g [] ∧ fJ.rsv = 0 ∧ fJ.imm = 0 := by decide

/-! ### Witnesses: tokens, descriptors, units -/
/-- In and out ports: 0 and 2 scalar, 1 a binary16 tile, 3 control, 4 a binary32 tile, the others unused. -/
def kD (r : Run) : Core := { k0 with firings := [(0, r)], prog := [(0, 0x0603010201#64), (1, 0x0603010201#64)] }
def sD (r : Run) : State := atCore (kD r)
def sDS (r : Run) : State := atCore { kD r with firings := [], ctxs := [(0, { x0 with setup := some r })] }
/-- With tokens of tag 5 in the stores of some ports. -/
def kT (r : Run) (ps : List Nat) : Core := { kD r with stores := ps.map (fun n => (n, [{ tag := 5, ctx := 0, held := .word 1 }])) }
def sT (r : Run) (ps : List Nat) : State := atCore (kT r ps)
/-- A descriptor of two dimensions. -/
def mkD (addr space fmt e0 e1 s0 s1 : Nat) : Desc :=
  BitVec.ofNat 512 (addr + space * 2 ^ 48 + fmt * 2 ^ 64 + 2 * 2 ^ 68 + 31 * 2 ^ 72 + 31 * 2 ^ 77 + e0 * 2 ^ 96 + e1 * 2 ^ 112 + 1 * 2 ^ 176 + s0 * 2 ^ 192 + s1 * 2 ^ 224)
/-- Descriptors: d0 a 2 × 2 binary16 region, d1 one of 3 dimensions short of that, d2 a column for reductions, d3 staging SRAM, d4 LPDDR6, d5 all zeros. -/
def descs : Tbl Desc := [(0, mkD 0 0 0 2 2 2 4), (1, mkD 64 0 1 2 2 4 8), (2, mkD 128 0 0 1 2 2 2), (3, mkD 0 1 0 2 2 2 4), (4, mkD 0 2 0 2 2 2 4), (6, mkD 0 0 0 2 2 0 0)]
def kX (r : Run) : Core := { kD r with ctxs := [(0, { x0 with descs := descs })] }
def sX (r : Run) : State := atCore (kX r)
def fM : FmtM := { g := gT, dA := 0, dB := 0, bank := 3, ca := true, cp := 0, rp := 0, ra := 0, rb := 0, rsv := 0 }
def fN : FmtN := { g := gT, bank := 3, dst := false, dD := 0, ofmt := 0, epi := 0, dE := 0, rp := 0, roD := 0, roE := 0, side := 0, half := false, rsv := 0 }
def fV : FmtV := { g := gT, dD := 0, dA := 0, dB := 0, dC := 0, fn := 0, rd := 0, rp := 0, roD := 0, roA := 0, roB := 0, sr := false }
def fW : FmtW := { g := gT, dS := 0, outP := 1, inP := 1, dir := 0, rp := 0, roS := 0, rsv := 0 }
def fL : FmtL := { g := gT, dL := 0, dR := 3, ch := 3, rp := 0, roL := 0, roR := 0, rsv := 0 }
def fQ : FmtQ := { g := gT, dN := 0, r1 := 0, imm := 0, word := 0, r2 := 0, rsv := 0 }
def fF : FmtF := { g := gT, hi := 0, pa := 0, pb := 2, pc := 3, pd := 0, ps := 0, rsv := 0 }

theorem witness_RecvTakesToken :
    (Ready (sD r0) c0 (.slot 0) r0 gT [24] ∧ 24 ≤ (24 : BitVec 5).toNat) ∧
    (Ready (sD r0) c0 (.slot 0) r0 gT [23] ∧ declType (getCore (sD r0) 0) 0 false 7 = 0) ∧
    (let r : Run := { r0 with held := [(0, .word 9)] }; Ready (sD r) c0 (.slot 0) r gT [23] ∧ declType (getCore (sD r) 0) 0 false 0 ≠ 0 ∧ tfind r.held 0 = some (.word 9) ∧ HasNext r) ∧
    (tfind r0.held 0 = none ∧ ∀ e ∈ tget (getCore (sD r0) 0).stores 0 [], ¬(e.ctx = r0.ctx ∧ e.tag = r0.tg)) ∧
    (Ready (sT r0 [0]) c0 (.slot 0) r0 gT [23] ∧ findEntry (getCore (sT r0 [0]) 0) 0 0 5 = some { tag := 5, ctx := 0, held := .word 1 }) ∧
    (let k : Core := { kD r0 with stores := [(1, [{ tag := 5, ctx := 0, held := .tile 1 2048 1 1 }])],
                                  ctxs := [(0, { x0 with rings := [(1, ⟨0, false, [.free, .stored]⟩)] })] }
     Ready (atCore k) c0 (.slot 0) r0 gT [23] ∧ declType k 0 false 1 = 2 ∧ findEntry k 1 0 5 = some { tag := 5, ctx := 0, held := .tile 1 2048 1 1 } ∧
       tfind (ctxOf k r0.ctx).rings 1 = some ⟨0, false, [.free, .stored]⟩) := by decide

theorem witness_Sends :
    (Ready (sD r0) c0 s0 r0 gT [fE.rs1, fE.rs2] ∧ fE.rsv = 0 ∧ fE.rd = 0 ∧ HasNext r0 ∧ tfind (getCore (sD r0) 0).outs 0 = none ∧ declType (getCore (sD r0) 0) 0 true 0 = 1) ∧
    (declType (getCore (sD r0) 0) 0 true 3 = 3) ∧
    (let sh := outShape (sD r0) (ctxOf (getCore (sD r0) 0) 0) 4
     declType (getCore (sD r0) 0) 0 true 4 = 2 ∧ declF32 (getCore (sD r0) 0) 0 true 4 = true ∧ (0 : Nat) % 128 = 0 ∧ (getCore (sD r0) 0).accs.length < 32 ∧
       accBlock (getCore (sD r0) 0) (frameRanges true 0 sh.1 sh.2) = none) ∧
    (Ready (sDS r0) c0 .setup r0 gT [1, 2]) := by decide

theorem witness_SendStops :
    (Ready (sDS r0) c0 .setup r0 gT [fE.rs1, fE.rs2] ∧ fE.t = false) ∧
    (Ready (sD r0) c0 s0 r0 gT [fE.rs1, fE.rs2] ∧ declType (getCore (sD r0) 0) 0 true 7 = 0 ∧ declType (getCore (sD r0) 0) 0 true 1 = 2 ∧ declType (getCore (sD r0) 0) 0 true 0 ≠ 2) ∧
    (let s : State := atCore { kD r0 with outs := [(0, { uid := 1, tok := { tag := 5, ctx := 0, body := .word 0 } })] }
     Ready s c0 s0 r0 gT [0, 0] ∧ declType (getCore s 0) 0 true 0 = 1 ∧ tfind (getCore s 0).outs 0 ≠ none) := by decide

theorem witness_SteerAndMerge :
    (Ready (sT r0 [0, 3]) c0 (.slot 0) r0 fF.g [] ∧ fF.hi = 0 ∧ fF.rsv = 0 ∧ HasNext r0 ∧ steerFault (kT r0 [0, 3]) 0 [0] (some 3) [0, 2] = none ∧
      (takeTok (kT r0 [0, 3]) r0 3).any (fun a => a.2.2.reg != 0 && (takeTok a.1 a.2.1 0).any (fun b => (tfind b.1.outs 0).isNone && b.2.1.pc == r0.pc)) = true) ∧
    (steerFault (kT r0 [0]) 0 [0] none [0, 2] = none ∧ readP (sT r0 [0]) c0 (.slot 0) 0 = true ∧ (takeTok (kT r0 [0]) r0 0).any (fun b => (tfind b.1.outs 0).isNone && b.2.1.pc == r0.pc) = true) ∧
    (steerFault (kT r0 [2, 3]) 0 [2, 0] (some 3) [0] = none ∧
      (takeTok (kT r0 [2, 3]) r0 3).any (fun a => a.2.2.reg != 0 && (takeTok a.1 a.2.1 2).any (fun b => (tfind b.1.outs 0).isNone && b.2.1.pc == r0.pc)) = true) ∧
    (hasTok (kT r0 [2]) r0 2 = true ∧ hasTok (kT r0 [2]) r0 0 = false ∧ steerFault (kT r0 [2]) 0 [2, 0] none [0] = none ∧ (takeTok (kT r0 [2]) r0 2).any (fun b => (tfind b.1.outs 0).isNone) = true) ∧
    (hasTok (kT r0 [0, 2]) r0 2 = true ∧ hasTok (kT r0 [0, 2]) r0 0 = true ∧ steerFault (kT r0 [0, 2]) 0 [2, 0] none [0] = none) ∧
    (hasTok (kD r0) r0 2 = false ∧ hasTok (kD r0) r0 0 = false ∧ steerFault (kD r0) 0 [2, 0] none [0] = none) := by decide

theorem witness_SetupDeclares :
    (let s : State := atCore { k0 with ctxs := [(0, { x0 with setup := some r0 })], prog := [(0, 1#64)] }
     Ready s c0 .setup r0 gT [] ∧ (0 : BitVec 9).toNat < 2 ∧ 2 ≤ (2 : BitVec 9).toNat ∧ (∀ n, n < 8 → declType (getCore s 0) 0 false n = if n = 0 then 1 else 0)) ∧
    (let r : Run := { r0 with s := [(1, 0x3F000), (2, 1)] }
     Ready (sDS r) c0 .setup r gT [1, 2] ∧ HasNext r ∧ declType (getCore (sDS r) 0) 0 false 4 = 2 ∧ declF32 (getCore (sDS r) 0) 0 false 4 = true ∧ 1 ≤ (readS (sDS r) c0 .setup 2).toNat ∧
       (readS (sDS r) c0 .setup 1).toNat % 4096 = 0 ∧ (readS (sDS r) c0 .setup 1).toNat + (readS (sDS r) c0 .setup 2).toNat * 4096 ≤ 0x40000) ∧
    (let r : Run := { r0 with s := [(1, 0xFFFF0000), (2, 0xFFFF)] }
     Ready (sDS r) c0 .setup r gT [1, 2] ∧ 1 ≤ (readS (sDS r) c0 .setup 1).toNat / 65536 ∧ (readS (sDS r) c0 .setup 2).toNat < 65536 ∧ (readS (sDS r) c0 .setup 1).toNat / 65536 ≤ (readS (sDS r) c0 .setup 2).toNat) ∧
    (Ready (sDS r0) c0 .setup r0 gT [] ∧ HasNext r0) ∧ Ready (sD r0) c0 (.slot 0) r0 gT [] ∧ (ctxOf ({ k0 with ctxs := [(0, { x0 with mtch := some (0, 2) })] } : Core) 0).mtch = some (0, 2) := by decide

theorem witness_SetupDeclaresTraps :
    (Ready (sDS r0) c0 .setup r0 gT [1, 2] ∧ (readS (sDS r0) c0 .setup 2).toNat < 1 ∧ declType (getCore (sDS r0) 0) 0 false 4 = 2) ∧
    (let r : Run := { r0 with s := [(1, 2048), (2, 64)] }
     Ready (sDS r) c0 .setup r gT [1, 2] ∧ (readS (sDS r) c0 .setup 2).toNat = 64 ∧ declType (getCore (sDS r) 0) 0 false 4 = 2 ∧ declF32 (getCore (sDS r) 0) 0 false 4 = true ∧
       (readS (sDS r) c0 .setup 1).toNat % 4096 ≠ 0) ∧
    (let r : Run := { r0 with s := [(1, 4096), (2, 64)] }
     Ready (sDS r) c0 .setup r gT [1, 2] ∧ (readS (sDS r) c0 .setup 1).toNat % 4096 = 0 ∧ 0x40000 < (readS (sDS r) c0 .setup 1).toNat + (readS (sDS r) c0 .setup 2).toNat * 4096) ∧
    Ready (sD r0) c0 (.slot 0) r0 gT [0, 0] := by decide

theorem witness_FinAndContextSwitch :
    (Ready (sF r0) c0 s0 r0 fE.g [] ∧ fE.rsv = 0 ∧ s0 ≠ .setup) ∧ (Ready (sS r0) c0 .setup r0 fE.g []) ∧ (fH.rsv = 0 ∧ fH.mode ≠ 3 ∧ fH.port = 0 ∧ fH.rs2 = 0 ∧ fH.t = false) := by decide

theorem witness_SectionSend :
    (Ready (sD r0) c0 s0 r0 gT [fH.rs2] ∧ fH.rsv = 0 ∧ fH.mode ≠ 3 ∧ (fH.t = false → fH.rs2 = 0) ∧ HasNext r0 ∧ declType (getCore (sD r0) 0) 0 true 3 = 3 ∧ tfind (getCore (sD r0) 0).outs 3 = none) ∧
    declType (getCore (sD r0) 0) 0 true 0 ≠ 3 := by decide

theorem witness_SyncIssues :
    (let r : Run := { r0 with s := [(1, 0x7F), (2, 0xFFFF)] }
     Ready (sF r) c0 s0 r gT [0, 1, 2] ∧ fG.rsv = 0 ∧ fG.pd = 0 ∧ fG.cond = 0 ∧ fG.timeout = 0 ∧ MayWrite s0 fG.rd ∧ HasNext r ∧ objOf (readS (sF r) c0 s0 1) = some (.hive cl0 127) ∧
       1 ≤ (readS (sF r) c0 s0 2).toNat ∧ (readS (sF r) c0 s0 2).toNat < 65536) ∧
    (let r : Run := { r0 with s := [(1, 0x80)] }; Ready (sF r) c0 s0 r gT [0, 1] ∧ objOf (readS (sF r) c0 s0 1) = none) ∧ (3 : BitVec 3).toNat < 4 := by decide

theorem witness_DescriptorClass :
    (let r : Run := { r0 with s := [(1, 0x3FFC0)] }
     Ready (sDS r) c0 .setup r gT [1] ∧ (readS (sDS r) c0 .setup 1 + (0 : BitVec 20).signExtend 32).toNat + 64 ≤ 0x40000 ∧ accBlock (getCore (sDS r) 0) [(0x3FFC0, 64)] = none ∧
       dBad (BitVec.ofNat 512 (sramNat (sDS r) c0 0x3FFC0 64)) = true) ∧
    (let d := mkD 0 0 0 2 2 2 4
     let s : State := atCore { kD r0 with firings := [], ctxs := [(0, { x0 with setup := some r0 })], sram := mwrites [] 0 (leBytes 64 d.toNat) }
     Ready s c0 .setup r0 gT [0] ∧ BitVec.ofNat 512 (sramNat s c0 0 64) = d ∧ dBad d = false ∧ HasNext r0) ∧
    ((readS (sDS r0) c0 .setup 0 + (4 : BitVec 20).signExtend 32).toNat % 64 ≠ 0) ∧
    ((readS (sDS r0) c0 .setup 0 + (0x40000 : BitVec 20).signExtend 32).toNat % 64 = 0 ∧ (readS (sDS r0) c0 .setup 0 + (0x40000 : BitVec 20).signExtend 32).toNat + 64 > 0x40000) ∧
    (Ready (sX r0) c0 s0 r0 gT [0] ∧ MayWrite s0 0 ∧ s0 ≠ .setup ∧ (15 : BitVec 4).toNat + (1 : BitVec 5).toNat ≤ 16) ∧
    (let s : State := atCore { kX r0 with firings := [], ctxs := [(0, { x0 with setup := some r0, descs := descs })] }
     Ready s c0 .setup r0 gT [0] ∧ dBad (setFld (tget (ctxOf (getCore s 0) 0).descs 0 0) 31 0 (readS s c0 .setup 0).toNat) = false) := by decide +kernel

theorem witness_MatrixDispatch :
    (let i := siteFor (sX r0) c0 (.slot 0) r0
     HasNext r0 ∧ Ready (sX r0) c0 (.slot 0) r0 fM.g (uses [fM.ra, fM.rb, fM.rp]) ∧ fM.rsv = 0 ∧ mmaBad true (viewOf i 0 0 0).d (viewOf i 0 0 0).d = true ∧
       mmaBad false (viewOf i 0 0 0).d (viewOf i 0 0 0).d = false ∧ sramTrap [viewOf i 0 0 0, viewOf i 0 0 0] = none ∧ (bankOf (kX r0) 3).order = none ∧ (bankOf (kX r0) 3).owner = none ∧ (kX r0).mq.length < 4) ∧
    (let b : Bank := { Bank.reset with order := some { b := 5, l := 2, s := 2, e := 5, ctx := 0 } }
     let s : State := atCore { kX r0 with banks := [(3, b)] }
     Ready s c0 (.slot 0) r0 gT [] ∧ r0.tg = 5 ∧ (bankOf (getCore s 0) 3).order = some { b := 5, l := 2, s := 2, e := 5, ctx := 0 }) ∧
    ((5 : Tag) ≠ 4 ∧ ((5 : Tag) - 4).toNat % 2 < 2 ∧ 0 < ((5 : Tag) - 4).toNat ∧ ((5 : Tag) - 4).toNat < 32768) ∧ ((5 : Tag) ≠ 6 ∧ ¬ ((5 : Tag) - 6).toNat < 32768) ∧
    (let s : State := atCore { kX r0 with banks := [(3, { Bank.reset with owner := some 9 })] }; Ready s c0 (.slot 0) r0 gT [] ∧ (bankOf (getCore s 0) 3).owner = some 9) ∧
    (Ready (sX r0) c0 (.slot 0) r0 fN.g (uses [fN.rp, fN.roD, fN.roE]) ∧ fN.rsv = 0 ∧ fN.ofmt ≠ 3 ∧ fN.epi.toNat < 4 ∧ drainPort (kX r0) 0 fN = none ∧ drainDstBad 0 (viewOf (siteFor (sX r0) c0 (.slot 0) r0) 0 0 0).d = false ∧
      sramTrap [viewOf (siteFor (sX r0) c0 (.slot 0) r0) 0 0 0] = none) ∧
    (drainPort (kX r0) 0 { fN with dst := true, dD := 7 } = some 7 ∧ drainPort (kX r0) 0 { fN with dst := true, dD := 1 } = none) ∧
    (drainEpiBad 2 2 (viewOf (siteFor (sX r0) c0 (.slot 0) r0) 0 0 0).d = false) ∧
    (drainEpiBad 3 2 (viewOf (siteFor (sX r0) c0 (.slot 0) r0) 0 0 0).d = true ∧ drainDstBad 0 (viewOf (siteFor (sX r0) c0 (.slot 0) r0) 1 0 0).d = true ∧
      drainDstBad 2 (viewOf (siteFor (sX r0) c0 (.slot 0) r0) 1 0 0).d = false) := by decide +kernel

/-- R97: a problem index out of range, a misaligned view and one beyond data SRAM, each where what comes before it is right. -/
theorem witness_SramRule :
    let a : View := ⟨mkD 0 0 0 2 2 2 4, 0, 0⟩
    let g : View := ⟨mkD 1 0 0 2 2 2 4, 0, 65535⟩
    let b : View := ⟨mkD 1 0 0 2 2 2 4, 1, 0⟩
    let e : View := ⟨mkD 0x3FFFC 0 0 2 2 2 4, 0x3FFFC, 0⟩
    (vRange a = false ∧ vMisaligned a = false ∧ vBeyond a = false) ∧ vRange g = true ∧ (vRange b = false ∧ vMisaligned b = true) ∧ (vRange e = false ∧ vMisaligned e = false ∧ vBeyond e = true) := by decide +kernel

theorem witness_VectorDispatch :
    let i := siteFor (sX r0) c0 (.slot 0) r0
    let d := viewOf i 0 0 0
    (HasNext r0 ∧ Ready (sX r0) c0 (.slot 0) r0 fV.g (uses [fV.rp, fV.roD, fV.roA, fV.roB, fV.rd]) ∧ vopUsesB 0 = false ∧ vopUsesC 0 = false ∧ (0x15 : BitVec 6).toNat < 0x17 ∧
      vopBad 0 d.d d.d none none = false ∧ vopBad 0 (viewOf i 6 0 0).d d.d none none = true ∧ vopBad 0x15 d.d d.d (some d.d) (some d.d) = false ∧ sramTrap [d, d] = none ∧ (kX r0).vq.length < 4) ∧
    (Ready (sX r0) c0 (.slot 0) r0 fV.g (uses [fV.rp, fV.roD, fV.roA, fV.roB]) ∧ vredBad (viewOf i 2 0 0).d d.d none = false ∧ sramTrap [viewOf i 2 0 0, d] = none) ∧
    (Ready (sX r0) c0 (.slot 0) r0 fV.g (0 :: uses [fV.rp, fV.roD, fV.roA, fV.roB]) ∧ moveBad d.d d.d d.d d.d = false ∧ sramTrap [d, d, d] = none) ∧
    (Ready (sX r0) c0 (.slot 0) r0 fW.g (uses [fW.rp, fW.roS]) ∧ fW.rsv = 0 ∧ declType (kX r0) 0 true 1 = 2 ∧ b2n (declF32 (kX r0) 0 true 1) = dFmt d.d ∧ declType (kX r0) 0 false 1 = 2 ∧
      haloBad (viewOf i 0 0 0).d 0 = false ∧ vRange d = false ∧ vMisaligned d = false ∧ vBeyond d = false ∧ haloBeyond d 0 = false) := by decide +kernel

theorem witness_RollerDispatch :
    let i := siteFor (sX r0) c0 s0 r0
    Ready (sX r0) c0 s0 r0 fL.g (uses [fL.rp, fL.roL, fL.roR]) ∧ fL.rsv = 0 ∧ HasNext r0 ∧ rlBad .ld (viewOf i 3 0 0).d (viewOf i 3 0 0).d = true ∧
      rlBad .ld (viewOf i 0 0 0).d (viewOf i 3 0 0).d = false ∧ rlBad .st (viewOf i 0 0 0).d (viewOf i 3 0 0).d = false ∧ rlBad .pf (viewOf i 3 0 0).d (viewOf i 4 0 0).d = false ∧
      vRange (viewOf i 0 0 0) = false ∧ vRange (viewOf i 3 0 0) = false ∧ rlMisaligned (viewOf i 0 0 0) = false ∧ rlMisaligned (viewOf i 3 0 0) = false ∧ vBeyond (viewOf i 0 0 0) = false := by decide +kernel

/-! ### Witnesses: what comes about in a core -/
def kFire : Core := { k0 with ctxs := [(0, { x0 with mtch := some (1, 2) })], stores := [(0, [{ tag := 5, ctx := 0, held := .word 1 }])] }
def wMx : MxItem := ⟨⟨3, 1, .slot 0, 0, 2, 5, 0, 0, 0, 1⟩, .mma false 3 true ⟨mkD 0 0 0 2 2 2 4, 0, 0⟩ ⟨mkD 64 0 0 2 2 2 4, 64, 0⟩⟩
def wDr (dst : Option View) : MxItem := ⟨⟨3, 1, .slot 0, 0, 2, 5, 0, 0, 0, 1⟩, .drain 3 dst 1 0 0 none 0 false 0⟩
def wVx (op : VxOp) : VxItem := ⟨⟨3, 1, .slot 0, 0, 2, 5, 0, 0, 0, 1⟩, op⟩
def vw : View := ⟨mkD 0 0 0 2 2 2 4, 0, 0⟩
def accA : Access := ⟨2, 1, 0, [(0, 8)], 0, 0⟩
def accB : Access := ⟨3, 1, 0, [(4, 8)], 0, 0⟩

theorem witness_FiringStarts :
    mayFire kFire = true ∧ (ctxOf kFire kFire.active).mtch = some (1, 2) ∧ eligible kFire kFire.active 1 ≠ [] ∧ tfind kFire.firings 0 = none := by decide

theorem witness_RetirementAdvancesBanks :
    let r : Run := { r0 with phase := .fin }
    (tfind (getCore (sF r) 0).firings 0 = some r ∧ finWaits (getCore (sF r) 0) r.uid = false) ∧
    (let s : State := atCore { k0 with firings := [(0, r)], outs := [(0, { uid := 1, tok := { tag := 5, ctx := 0, body := .word 0 } })] }
     tfind (getCore s 0).firings 0 = some r ∧ finWaits (getCore s 0) r.uid = true) ∧
    (let s : State := atCore { k0 with firings := [(0, r)], banks := [(3, { Bank.reset with order := some ⟨5, 1, 2, 5, 0⟩ })] }
     tfind (getCore s 0).firings 0 = some r ∧ finWaits (getCore s 0) r.uid = false ∧ (⟨5, 1, 2, 5, 0⟩ : Order).e = r.tg) := by decide

theorem witness_TokenArrivals :
    let tk : Token := ⟨5, 0, .word 7⟩
    let tl : Token := ⟨5, 0, .tile false 1 1 [1, 2]⟩
    let k : Core := { k0 with arrivals := [(0, [tk]), (1, [tl])], ctxs := [(0, { x0 with window := 8, rings := [(1, ⟨0, false, [.stored, .free]⟩)] })] }
    (arrivalFails k 0 tk = none) ∧ (arrivalFails { k with stores := [(0, [⟨5, 0, .word 1⟩])] } 0 tk = some 0x020) ∧
    (arrivalFails k 1 tl = none ∧ [Slot.stored, Slot.free].findIdx? (· == .free) = some 1) := by decide

theorem witness_LandingSlotFreed :
    let k : Core := { k0 with ctxs := [(0, { x0 with rings := [(1, ⟨0, false, [.draining 3]⟩)] })], accs := [accA] }
    (tfind (ctxOf k 0).rings 1).any (fun g => g.slots[0]? == some (.draining 3)) = true ∧ (rangesMeet accA.ranges [(0 + 0 * 2048, 2048)] = true ∧ accA.seq < 3) ∧
    haloHolds { k with accs := [], vq := [wVx (.halo vw 1 1 0 true (some (.tile 0 0 1 2)))] } 0 = true ∧
    (haloHolds k 0 = false ∧ ∀ a ∈ [accB], a.seq < 3 → rangesMeet a.ranges [(0 + 0 * 2048, 2048)] = false) := by decide

/-- R43: with B = 0, L = 1, S = 7, the member after 65,534 is 65,534 + 7 past the wrap, where the sequence starts again at 0; 12 follows 5 at S = 7. -/
theorem test_nextMember :
    nextMember ⟨0, 1, 7, 65534, 0⟩ = 0 ∧ nextMember ⟨5, 1, 7, 5, 0⟩ = 12 ∧ nextMember ⟨5, 2, 7, 5, 0⟩ = 6 := by decide

/-- R35, R37: two tags 32,768 apart, and three spread round the ring, span no window. -/
theorem test_span : spanWith [0] 32768 = 32768 ∧ spanWith [0, 20000] 45000 ≥ 32768 ∧ spanWith [5, 9] 7 = 4 := by decide

theorem witness_CoreSectionTokens :
    let k : Core := { k0 with arrivals := [(3, [⟨5, 0, .sect 0 1 9⟩]), (4, [⟨5, 0, .sect 2 1 9⟩]), (5, [⟨5, 1, .sect 0 1 9⟩]), (6, [⟨5, 0, .sect 0 0 9⟩])],
                              stores := [(0, [⟨5, 0, .word 1⟩, ⟨5, 1, .word 1⟩])], firings := [(0, r0)] }
    k.switching = none ∧ k.active = 0 ∧
    (∀ p ∈ [(3, 0, 0, 1), (4, 0, 2, 1), (5, 1, 0, 1), (6, 0, 0, 0)], tget k.arrivals p.1 [] = [⟨5, p.2.1, .sect p.2.2.1 p.2.2.2 9⟩]) ∧
    storeCount (tget k.stores 0 []) k.active = 1 := by decide

theorem witness_ContextSwitches :
    (let k : Core := { k0 with firings := [(0, r0)], switching := some ⟨0, 1, 9⟩ }; ∃ f ∈ k.firings, f.2.ctx = k.active) ∧
    (let k : Core := { k0 with stores := [(0, (List.range 17).map (fun n => ⟨BitVec.ofNat 16 n, 0, .word 0⟩))], switching := some ⟨1, 1, 9⟩ }
     (∀ f ∈ k.firings, f.2.ctx ≠ k.active) ∧ (ctxOf k k.active).setup = none ∧ (∃ q ∈ k.stores, storeCount q.2 k.active > 16)) ∧
    (∀ m ∈ [0, 1, 2], ∀ nx ∈ [[], [(⟨0, 0, 3⟩ : CtxSwitch)]],
      let k : Core := { k0 with ctxs := [(0, x0), (1, { x0 with needSetup := true })], switching := some ⟨m, 1, 9⟩, switchNext := nx }
      (∀ f ∈ k.firings, f.2.ctx ≠ k.active) ∧ (ctxOf k k.active).setup = none ∧ (∀ q ∈ k.stores, storeCount q.2 k.active = 0) ∧ (∀ v ∈ k.switchNext.head?, v.mode ≠ 2) ∧
       (ctxOf k 1).stn.isSome = true ∧ (ctxOf k 1).needSetup = true) := by decide

theorem witness_MatrixQueueRuns :
    (let k : Core := { k0 with mq := [wMx], accs := [accA, accB] }; earlier k wMx.o.seq = some accA ∧ (∀ x ∈ earlierAll k wMx.o.seq, x.tier = 0) ∧ k.mq.tail.head? = none) ∧
    (let q : MxItem := { wDr (some vw) with o := { (wDr none).o with seq := 3 } }
     let m : MxItem := { wMx with o := { wMx.o with seq := 4 }, op := .mma false 1 true ⟨mkD 128 0 0 2 2 2 4, 128, 0⟩ ⟨mkD 128 0 0 2 2 2 4, 128, 0⟩ }
     let k : Core := { k0 with mq := [q, m], accs := [accA, accB, ⟨4, 1, 0, [(128, 8)], 0, 0⟩] }
     earlier k q.o.seq = some accA ∧ (∀ x ∈ earlierAll k q.o.seq, x.tier = 0) ∧ earlier k m.o.seq = none) ∧
    (let k : Core := { k0 with mq := [wMx], accs := [accB] }; earlier k wMx.o.seq = none) ∧
    (let q := wDr (some vw); earlier { k0 with mq := [q], accs := [accB] } q.o.seq = none ∧ dExt vw.d 1 = 2 ∧ dExt vw.d 0 = 2 ∧
      (∀ m n m' n' : Fin 2, (m ≠ m' ∨ n ≠ n') →
        Apart (vAddr vw [(n.val : Int), (m.val : Int)]) (dSize vw.d) (vAddr vw [(n'.val : Int), (m'.val : Int)]) (dSize vw.d))) ∧
    (earlier { k0 with mq := [wDr none] } (wDr none).o.seq = none ∧ tfind k0.outs 1 = none) ∧
    (let k : Core := { k0 with mq := [wDr none, { wMx with op := .mma false 1 true vw vw }], outs := [(1, ⟨9, ⟨5, 0, .word 0⟩⟩)] }
     tfind k.outs 1 ≠ none ∧ earlier k wMx.o.seq = none ∧ mxBank (wDr none).op ≠ some 1) := by decide +kernel

/-- Chunks with a NaN, with infinity times zero and with finite products; a sum to be rounded at a tie, one that overflows and one that is flushed. -/
theorem witness_MatrixArithmetic :
    (dec16 0x7E00).isNan = true ∧ (dec16 0x7C00 = .inf false ∧ (dec16 0x8000).isZero = true) ∧
    ((∀ p ∈ [(0x3C00#32, 0x4000#32), (0xBC00, 0x3C00)], ∃ s1 m1 e1 s2 m2 e2, dec16 p.1 = .fin s1 m1 e1 ∧ dec16 p.2 = .fin s2 m2 e2 ∧ 0 ≤ e1 + e2 + 48) ∧
      ftz 0x3F800000 = (0x3F800000, false)) ∧
    (let m := 2 ^ 24 + 1
     let k := roundAt m 0 false 1
     2 * m = 2 * (k * 2) + 2 ∧ k % 2 = 0) ∧
    ((128 : Int) ≤ 105 + (2 ^ 23 : Nat).log2 ∧ (-151 : Int) + (2 ^ 23 : Nat).log2 < -127) ∧
    (∃ n m e, dec32 0x3F800000 = .fin n m e ∧ fld (0x3F800000 : Word) 30 23 ≠ 0) ∧
    (65520 ≤ truncAt 65520 0 0 ∧ dec32 0x477FF000 = .fin false 0xFFF000 (-8) ∧ 65520 ≤ truncAt 0xFFF000 (-8) 0 ∧ truncAt 0xFFEFFF (-8) 0 < 65520) := by
  refine ⟨by decide, by decide, ⟨?_, by decide⟩, by decide, by decide, ⟨_, _, _, rfl, by decide⟩, by decide⟩
  intro p h
  simp only [List.mem_cons, List.not_mem_nil, or_false] at h
  rcases h with rfl | rfl <;> exact ⟨_, _, _, _, _, _, rfl, rfl, by decide⟩

theorem witness_VectorQueueRuns :
    (let k : Core := { k0 with vq := [wVx (.vop 0 vw vw none none 0 false)], accs := [accA, accB] }; earlier k 3 = some accA) ∧
    (∀ op ∈ [VxOp.vop 0 vw vw none none 0 false, .vred 0 vw vw none false, .vred 1 vw vw (some vw) false, .vcmp vw vw vw 3, .vexp vw vw vw 3],
      (wVx op).op = op ∧ earlier { kD r0 with vq := [wVx op] } 3 = none) ∧
    (kD r0).firings.find? (fun f => f.2.uid == 1) = some (0, r0) := by decide +kernel

/-- A mask whose elements are 1 and 0 in turn, at 256; sources at 64; a column of results at 512. -/
def vMask : View := ⟨mkD 256 0 0 2 2 2 4, 256, 0⟩
def vSrc : View := ⟨mkD 64 0 0 2 2 2 4, 64, 0⟩
def vCol : View := ⟨mkD 512 0 0 1 2 2 4, 512, 0⟩
def vCol2 : View := ⟨mkD 640 0 2 1 2 4 4, 640, 0⟩

theorem witness_VectorResults :
    (WritesApart vw [vSrc, vw] ∧ dFmt vw.d < 2) ∧
    (WritesApart vCol [] ∧ FarFrom vCol vSrc ∧ WritesApart vCol2 [] ∧ FarFrom vCol2 vSrc ∧ walkReal vCol2.d = walkReal vCol.d ∧ dFmt vCol.d < 2 ∧
      (∀ p ∈ walkReal vCol.d, ∀ r ∈ walkReal vCol.d, Apart (vAddr vCol p.i) (dSize vCol.d) (vAddr vCol2 r.i) (dSize vCol2.d)) ∧
      (∀ p ∈ walkReal vCol.d, ∀ j, j < dExt vSrc.d 0 → ∃ r ∈ walkReal vSrc.d, vAddr vSrc r.i = vAddr vSrc ((j : Int) :: p.i.tail))) ∧
    (WritesApart vw [] ∧ FarFrom vw vSrc ∧
      (∀ p ∈ walkReal vw.d, ∀ r ∈ walkReal vSrc.d, Apart (vAddr vw p.i) (dSize vw.d) (vAddr vMask r.i) (dSize vMask.d)) ∧
      (let m := mwrites [] 256 [0x00, 0x3C, 0, 0, 0x00, 0x3C, 0, 0]
       ((walkReal vSrc.d).filter (maskOn m vMask)).length = 2 ∧ (walkReal vw.d).length = 4)) := by
  refine ⟨⟨?_, ?_⟩, ⟨?_, ?_, ?_, ?_, ?_, ?_, ?_, ?_⟩, ?_, ?_, ?_, ?_⟩ <;> first | decide +kernel | (simp only [WritesApart, FarFrom]; decide +kernel)

theorem witness_VectorFunctions :
    ((Val.nan true).isNan = true ∧ (0x0A : Nat) < 0x16 ∧ (Val.inf true).isNan = false) ∧
    (roundAt (2 ^ 31 - 1) 0 false 0 < 2 ^ 31 ∧ 2 ^ 31 < roundAt (2 ^ 31 + 1) 0 false 0) ∧
    (2 ^ 24 ≤ truncAt 1 0 (-24) ∧ (2 ^ 24 - 1) < 2 ^ 24) ∧ (∀ x ∈ [Val.fin true 0 0, .fin true 0 0], x = .fin true 0 0) := by decide

theorem witness_HaloRuns :
    let v : View := ⟨setFld (mkD 0 0 0 4 4 2 8) 407 404 1, 0, 0⟩
    let u : View := ⟨setFld (mkD 0 0 0 4 4 2 8) 403 400 1, 64, 0⟩
    let o : Origin := ⟨3, 1, .slot 0, 0, 2, 5, 0, 0, 1, 2⟩
    let q : VxItem := ⟨o, .halo v 1 1 0 false none⟩
    let k : Core := { k0 with ctxs := [(0, { x0 with rank := 1, ncores := 2 })], vq := [q] }
    ((haloBorder v.d 0).2.2.2 ≠ 0 ∧ earlier k 3 = none ∧ o.rank > 0 ∧ ¬ (o.rank + 1 < o.ncores)) ∧
    (tfind k.outs 1 = none ∧ tfind ({ k with outs := [(1, ⟨9, ⟨5, 0, .word 0⟩⟩)] } : Core).outs 1 ≠ none) ∧
    (let strip := haloStrip v.d 0 (haloBorder v.d 0).2.2.1
     ∀ i < 4, ∀ j < 4, i ≠ j → Apart (vAddr v (strip.getD i [])) (dSize v.d) (vAddr v (strip.getD j [])) (dSize v.d)) ∧
    (∀ sh ∈ [(1, 4), (2, 2)], haloTake k { o with rank := 0 } 1 (some (.tile 0 2048 sh.1 sh.2)) = some (k, .tile 0 2048 sh.1 sh.2)) ∧
    (haloShape v.d 0).1 = 1 ∧ (haloShape v.d 0).2 = 4 ∧ (ctxOf k o.ctx).stn ≠ none ∧ haloTake { k with vq := [] } o 1 none = none ∧ (haloBorder u.d 0).2.2.2 = 0 := by decide +kernel

theorem witness_NanReports :
    (bit (partReg (getPart State.reset 0) 0x144) 31 = false) ∧
    (bit (partReg { Part.reset with regs := [(0x144, 0x80000000)] } 0x144) 31 = true) ∧
    (kD r0).firings.find? (fun f => f.2.uid == 1) = some (0, r0) := by decide

theorem witness_StepOverflowReports :
    let st : Word := 0x10007
    bit st 16 = true ∧ (7 : BitVec 16) = st.setWidth 16 ∧ (8 : BitVec 16) = st.setWidth 16 + 1 ∧ bit (partReg Part.reset 0x114) 16 = false := by decide

theorem witness_SyncResponses :
    (∀ op ∈ [SyncOp.faa, .ld, .wait, .bar], ∀ a ∈ [Answer.val 9, .refused 4],
      let r : Run := { r0 with phase := .sync ⟨op, 3, 2, .hive cl0 5, false, 7⟩ }
      let k : Core := { kD r with syncRsps := [⟨1, op, 7, a⟩] }
      runOf k (.slot 0) = some r ∧ answerFor k r = some ⟨1, op, 7, a⟩ ∧ HasNext r ∧ MayWrite (.slot 0) 3 ∧ bit (coreReg k 0x004) 0 = false) := by decide

theorem witness_SyncTimeouts :
    (∀ tm ∈ [true, false], ∀ rs ∈ [[], [(⟨1, .wait, 7, .val 9⟩ : SyncRsp)]],
      let r : Run := { r0 with phase := .sync ⟨.wait, 3, 2, .hive cl0 5, tm, 7⟩ }
      runOf ({ kD r with syncRsps := rs } : Core) (.slot 0) = some r ∧ HasNext r ∧ (rs = [] ∨ ∃ a ∈ rs, a.uid = r.uid ∧ a.tid = 7)) := by decide
/-! ### Witnesses: the fabric -/
def atCl (k : Cluster) : State := { State.reset with clusters := [(0, k)] }
def tokA : Token := ⟨5, 0, .word 7⟩
/-- A cluster whose scalar slot 3 of context 0 has route word w, with tokens that have crossed at the north side. -/
def kR (w : Word) (ts : List Token) : Cluster := { Cluster.reset with regs := [(routeOff 0 0 3, w)], cross := [(qkey 0 0 3, ts)] }
/-- Core 0 with its scalar ports bound to scalar slot 3. -/
def partB : Part := { Part.reset with regs := [(0x8060, 27), (0x8080, 27)] }

theorem witness_SwitchArrivals :
    (tget (kR 0 [tokA]).cross (qkey 0 0 3) [] = [tokA] ∧ rtValid (route (kR 0 [tokA]) 0 0 3) = false) ∧
    (rtValid (route (kR 1 [tokA]) 0 0 3) = true ∧ rtSrc (route (kR 1 [tokA]) 0 0 3) 0 = false) ∧
    (let t : Token := ⟨5, 0, .sect 0 1 9⟩; t.isSect = true ∧ rtSect 3 = false ∧ rtValid 3 = true ∧ rtSrc 3 0 = true) ∧
    (rtValid (route (kR 3 [tokA]) 0 0 3) = true ∧ rtSrc (route (kR 3 [tokA]) 0 0 3) 0 = true ∧ tokA.isSect = false ∧ tokA.ctx = swCtx (kR 3 [tokA]) ∧ (kR 3 [tokA]).sw = none) ∧
    (let t : Token := ⟨5, 1, .word 7⟩
     let k : Cluster := { kR 3 [t] with regs := [(routeOff 1 0 3, 3)], queues := [(qkey 0 0 3, List.replicate 16 t)] }
     t.isSect = false ∧ t.ctx ≠ swCtx k ∧ k.sw = none ∧ 16 ≤ heldCount k 0 0 (fun c => c != swCtx k) ∧ rtValid (route k 1 0 3) = true ∧ rtSrc (route k 1 0 3) 0 = true) := by decide

theorem witness_LocalArrivals :
    let s : State := { State.reset with cores := [(0, { k0 with outs := [(0, ⟨1, tokA⟩)] })], clusters := [(0, { Cluster.reset with regs := [(routeOff 0 0 3, 33)] })], parts := [(0, partB)] }
    localSource s 0 0 3 = some (.core 0 0 tokA) ∧ rtValid (route (getCl s 0) 0 0 3) = true ∧ rtSrc (route (getCl s 0) 0 0 3) 4 = true ∧ tokA.ctx = swCtx (getCl s 0) := by decide +kernel

theorem witness_SwitchForwards :
    (let k : Cluster := { Cluster.reset with regs := [(0x100, 1), (routeOff 0 0 3, 0x83)], queues := [(qkey 0 0 3, [tokA])] }
     let s := atCl k
     (cycleGrants s 0 0).map (fun g => (g.slot, g.side, g.tok)) = [(3, 0, tokA)] ∧ pmActive s = true ∧ neighbour 0 1 = some 1 ∧
       rtDst (route k 0 0 3) 1 = true ∧ (∀ e, e < 5 → e ≠ 1 → rtDst (route k 0 0 3) e = false)) ∧
    (let k : Cluster := { Cluster.reset with regs := [(0x100, 1), (routeOff 0 0 3, 0x403)], queues := [(qkey 0 0 3, [tokA])] }
     let s : State := { atCl k with cores := [(0, k0)], parts := [(0, partB)] }
     (cycleGrants s 0 0).map (fun g => (g.slot, g.side, g.tok)) = [(3, 0, tokA)] ∧ pmActive s = true ∧
       rtDst (route k 0 0 3) 4 = true ∧ (∀ e, e < 4 → rtDst (route k 0 0 3) e = false) ∧ consumers s 0 0 0 3 0 = [.core 0 0]) ∧
    (∀ slot ∈ rotation 0 31, readySide State.reset 0 0 slot = none) := by decide +kernel

/-- A unit of each mode: control slot 1, data inputs scalar slots 2 and 4, outputs slots 6 and 7. -/
def stW (mode : Nat) : Word := w32 (1 + mode * 2 + 2 * 16 + 4 * 512 + 1 * 2 ^ 14 + 6 * 2 ^ 18 + 7 * 2 ^ 23)
def kU (mode : Nat) (x : SUnit) : Cluster := { Cluster.reset with regs := [(0x100, 1), (steerOff 0 0, stW mode)], units := [(0, x)] }

/-- R129: two pairs that complete together leave by tag; a pair that was complete before leaves first. R128: a head that finds 32 tokens waits. -/
theorem test_unitCycle :
    let p : SPair := ⟨some ⟨6, 0, .word 1⟩, ⟨6, 0, .word 2⟩, false, 6⟩
    let x : SUnit := { SUnit.reset with ctl := [⟨6, 0, .word 1⟩, ⟨5, 0, .word 1⟩], data := [(false, ⟨6, 0, .word 2⟩), (false, ⟨5, 0, .word 3⟩)] }
    (unitCycle x (stW 0) 0).1.out = [(6, ⟨5, 0, .word 3⟩)] ∧ (unitCycle { x with ready := [p] } (stW 0) 0).1.out = [(6, ⟨6, 0, .word 2⟩)] ∧
    (unitCycle { SUnit.reset with data := List.replicate 32 (false, ⟨9, 0, .word 0⟩), inq := [(1, [⟨8, 0, .word 0⟩])] } (stW 0) 0).2 = true := by decide +kernel

theorem witness_SteeringPairs :
    (∀ m ∈ [0, 1, 2], bit (steer (kU m SUnit.reset) 0 0) 0 = true ∧ swEnabled (kU m SUnit.reset) (swCtx (kU m SUnit.reset)) = true ∧ stMode (steer (kU m SUnit.reset) 0 0) = m) ∧
    (let x : SUnit := { SUnit.reset with data := [(true, tokA), (false, tokA)] }; mergeDup x (stW 2) 0 = true ∧ mergeDup x (stW 0) 0 = false) ∧
    (let x : SUnit := { SUnit.reset with ctl := [⟨5, 0, .word 0⟩], data := [(true, ⟨6, 0, .word 1⟩), (false, tokA)] }
     ∀ m ∈ [0, 1, 2], mergeDup x (stW m) 0 = false ∧ ∃ p ∈ unitPairs x (stW m) 0, (!(x.out.any (fun o => o.1 == p.out))) = true) := by decide +kernel

/-- A control token and a section token behind it, on a route to the east side (0x83) or to the local side (0x403). -/
def kS (w : Word) (m new : Nat) : Cluster :=
  { Cluster.reset with regs := [(0x100, 1), (routeOff 0 2 3, w)], queues := [(qkey 0 2 3, [⟨6, 1, .word 1⟩, ⟨5, 0, .sect m new 9⟩])] }
theorem witness_SectionTokens :
    (∀ w ∈ [(0x83 : Nat), 0x403], ∀ m ∈ [(0 : Nat), 1, 2], ∀ new ∈ [(0 : Nat), 1],
      let k := kS (w32 w) m new
      let queue := tget k.queues (qkey 0 2 3) []
      queue.find? Token.isSect = some ⟨5, 0, .sect m new 9⟩ ∧ (queue.takeWhile (fun u => !u.isSect)).all (fun u => u.ctx != 0) = true ∧ k.sw = none ∧
        swEnabled k 0 = true ∧ swCtx k = 0) ∧
    (rtDst (route (kS 0x83 0 1) 0 2 3) 1 = true ∧ neighbour 0 1 = some 1 ∧ rtDst (route (kS 0x403 0 1) 0 2 3) 4 = true) ∧
    (∀ d, d < 4 → rtDst (route (kS 0x403 0 1) 0 2 3) d = false) ∧ (∀ d, d < 5 → d ≠ 1 → rtDst (route (kS 0x83 0 1) 0 2 3) d = false) := by decide

/-- The credit of the east side where nothing stands beyond it, and with two tokens there; of the local side with one core bound; sides and nets
with 16 tokens and fewer, and with 17. -/
theorem witness_SectionTokens_credit :
    sideCredit (atCl (kS 0x83 0 1)) 0 2 3 1 [] = true ∧
    sideCredit { atCl (kS 0x83 0 1) with clusters := [(1, { Cluster.reset with cross := [(qkey 3 2 3, [tokA, tokA])] })] } 0 2 3 1 [] = false ∧
    sideCredit (atCore k0) 0 2 3 4 [.core 0 0] = true ∧
    (∀ i, i < 15 → heldCount (kS 0x83 1 1) (i / 3) (i % 3) (fun c => c == 0) ≤ 16) ∧
    heldCount { kS 0x83 1 1 with queues := [(qkey 0 2 3, List.replicate 17 ⟨6, 0, .word 1⟩)] } 0 2 (fun c => c == 0) = 17 := by decide +kernel


theorem witness_SwitchDrainEnds :
    let k : Cluster := { Cluster.reset with sw := some ⟨0, 0, 0, 1, 9⟩ }
    (purge k (fun t => t.isSect || t.ctx != 0)).2 = 0 ∧ (purge { k with queues := [(qkey 0 0 3, [tokA])] } (fun t => t.isSect || t.ctx != 0)).2 > 0 := by decide
/-! ### Witnesses: rollers and synchronisation -/
def orgA : Origin := ⟨3, 1, .slot 0, 0, 2, 5, 0, 0, 0, 1⟩
def jobA (a b : View) : Job := jobOf (some 0) 0 orgA .ld false a b none false
def stgV : View := ⟨mkD 0 1 0 2 2 2 4, 0, 0⟩
def withJob (k : Cluster) (j : Job) : Cluster := { k with chans := [(0, ⟨32, some j⟩)] }
def okOf (e : Except RlFail Cargo) : Bool := match e with | .ok _ => true | .error _ => false
def okB (e : Except RlFail (List Byte)) : Bool := match e with | .ok _ => true | .error _ => false
def okStore (s : State) (j : Job) : Bool := match loadCargo s ⟨0, 0, false⟩ j with | .ok x => writeFail s ⟨0, 0, false⟩ 1 (storeList j x) == none | .error _ => false
def kHive (cfg val : Word) (qs : List SyncReq) : Cluster :=
  { Cluster.reset with regs := [(0x1028, val), (0x102C, cfg)], hive := { SyncState.reset with arrived := qs } }
def o5 : ObjRef := .hive cl0 5
def reqA (op : SyncOp) (arg : Word) : SyncReq := ⟨.core 0 1, 0, op, o5, arg, 2, 7, 4, true⟩
def sH (k : Cluster) : State := { sR with clusters := [(0, k)] }

theorem witness_RollerTakesRequest :
    (let q : RlReq := ⟨orgA, .ld, vw, stgV⟩
     let s : State := { sR with cores := [(0, { k0 with rq := [(0, [q])] })] }
     (getChan (getCl s 0) 0).job = none ∧ nextSource s 0 0 = some 0 ∧ tget (getCore s 0).rq 0 [] = [q] ∧ dSpace vw.d ≤ 1 ∧ dSpace stgV.d = 1 ∧ belowSpace stgV = false) ∧
    (let k : Cluster := { Cluster.reset with regs := [(0x1820, 3), (0x1828, 1)] }
     nextSource (sH k) 0 0 = some 32 ∧ (ringEntry (mreads k.staging (fld (clReg k 0x1824) 22 0 + 192 * ringHead k 0) 192)).bad = true ∧ bit (clReg k 0x1800) 31 = false) := by decide +kernel

/-- A PARAM request whose page is mapped, and one whose page is not. -/
def pPage : Part := { pOpen with pt2 := [(0, 1)] }
def prmV (a : Nat) : View := ⟨setFld (mkD a 2 0 32 32 2 64) 71 71 1, a, 0⟩
theorem witness_ParamReads :
    (let s : State := { sR with parts := [(0, pPage)] }
     dParam (prmV 0).d = true ∧ (walkOuter (prmV 0).d)[0]? = some [0, 0, 0] ∧ (outerAddr (prmV 0) [0, 0, 0]).toNat = 0 ∧
       okB (paramFetch s ⟨0, 0, false⟩ 0) = true) ∧
    okB (paramFetch sR ⟨0, 0, false⟩ 0) = false ∧
    (let s : State := { sR with parts := [(0, pPage)], mcs := [(0, { Mc.reset with poison := [(0, 0)] })] }
     (pageOf s 0 2 0).isSome = true ∧ paramRanges s ⟨0, 0, false⟩ 0 = [(0, 4)] ∧ pageRefusal s 0 2 0 false = none) := by decide +kernel

/-- A whole sector in core SRAM, the same in LPDDR6 and in the host tier; a partition with page 0 of both tiers, an ACTIVE slot of epoch 0 and
the bus-master bit. -/
def secV (space : Nat) : View := ⟨mkD 0 space 0 256 1 2 512, 0, 0⟩
def pTiers : Part :=
  { pPage with regs := [(0x10, 1), (0x164, 1)], pt3 := [(0, 1)], fn := { FnState.reset with cfg := [(0x04, 4)] } }
def sTiers (j : Job) : State := { sR with parts := [(0, pTiers)], clusters := [(0, withJob Cluster.reset j)], cores := [(0, { k0 with accs := [accB] })] }

theorem witness_RollerTransfers :
    (let s : State := { sR with clusters := [(0, withJob Cluster.reset (jobA stgV vw))], cores := [(0, { k0 with accs := [accB] })] }
     (getChan (getCl s 0) 0).job = some (jobA stgV vw) ∧ jobReady (jobA stgV vw) = true ∧ earlier (getCore s 0) 3 = none ∧ okOf (loadCargo s ⟨0, 0, false⟩ (jobA stgV vw)) = true ∧ dSpace vw.d = 0 ∧
       sweepHolds s (jobA stgV vw) = false ∧ dFmt stgV.d = dFmt vw.d ∧ dComp stgV.d = false ∧ dComp vw.d = false ∧ dParam stgV.d = false) ∧
    (let j := jobA vw stgV
     let s : State := { sR with clusters := [(0, withJob Cluster.reset j)], cores := [(0, { k0 with accs := [accB] })] }
     jobReady j = true ∧ dSpace j.b.d = 1 ∧ okStore s j = true ∧
       s.hub.hccDirty.all (fun d => !(d.2.any (dirtyHit s d.1 ⟨0, 0, false⟩ 1 []))) = true) := by decide +kernel

/-- Destinations in the lower tiers; one whose function may not send, and one whose page is being re-encrypted. -/
theorem witness_RollerTransfers_tiers :
    (∀ sp ∈ [2, 3], let j := jobA (secV 0) (secV sp)
      jobReady j = true ∧ dSpace j.b.d = sp ∧ earlier (getCore (sTiers j) 0) 3 = none ∧ sweepHolds (sTiers j) j = false ∧ (pageOf (sTiers j) 0 sp 0).isSome = true) ∧
    (let j := jobA (secV 0) (secV 3)
     hostOpen (sTiers j) 0 = true ∧ hostOpen { sTiers j with parts := [(0, { pTiers with fn := FnState.reset })] } 0 = false ∧ keySlot (sTiers j) 0 0 = some 0 ∧
       sweepHolds { sTiers j with parts := [(0, { pTiers with reads := [(2, [4])] })] } j = true) := by decide +kernel
theorem witness_RollerTransfers_stores :
    let ws : List (Nat × List Byte) := [(0, List.replicate 512 7)]
    (∀ sp ∈ [2, 3], writeFail (sTiers (jobA (secV 0) (secV sp))) ⟨0, 0, false⟩ sp ws = none) ∧ coversRange ws 0 512 = true ∧
      subDown (getMc (sTiers (jobA (secV 0) (secV 2))) 0) 0 0 = false := by decide +kernel
/-- Where page 0 alone is mapped, no two pages share a frame. -/
theorem witness_RollerTransfers_frames (sp a : Nat) (e : BitVec 128) (h : sp = 2 ∨ sp = 3) (he : pageOf (sTiers (jobA (secV 0) (secV sp))) 0 sp a = some e) :
    a / 2 ^ 21 = 0 := by
  have hp : getPart (sTiers (jobA (secV 0) (secV sp))) 0 = pTiers := rfl
  simp only [pageOf, ptEnt, hp] at he
  by_cases hz : (0 : Nat) = a / 2 ^ 21
  · exact hz.symm
  · have hz' : ¬ 0 = a / 2097152 := hz
    rcases h with rfl | rfl <;> simp [pTiers, pPage, tget, hz, hz', ptValid, bit] at he

theorem witness_RingEntries :
    let j : Job := { jobOf none 0 (ringOrigin 0) .ld false stgV stgV (some (5, 1)) true with done := true }
    (ringLog Cluster.reset 0 ≤ 12 ∧ (getChan (withJob Cluster.reset j) 0).job = some j ∧ j.core = none ∧ j.done = true) ∧
    (objOf 5 = some o5 ∧ j.synSent = false ∧ j.sync = some (5, 1)) ∧
    (let j1 := { j with synSent := true, syn := some (.val 0) }; j1.synSent = true ∧ j1.syn = some (.val 0) ∧ j1.irq = true) := by decide +kernel

theorem witness_SyncOperations :
    (∀ op ∈ [SyncOp.faa, .ld, .st, .wait, .bar], OneRequest (sH (kHive 1 2 [reqA op 3])) (.hive cl0) (reqA op 3)) ∧
    (∀ op ∈ [SyncOp.wait, .bar], OneRequest (sH (kHive 1 2 [reqA op 1])) (.hive cl0) (reqA op 1)) ∧
    (∀ op ∈ [SyncOp.faa, .st, .bar],
      let w : Waiter := ⟨⟨.core 1 1, 0, .wait, o5, 3, 2, 7, 4, true⟩, 0⟩
      let k := kHive 1 2 [reqA op 3]
      OneRequest (sH { k with hive := { k.hive with waiters := [w] } }) (.hive cl0) (reqA op 3) ∧ (reqA op 3).arg.toNat % 65536 ≤ (2 : Word).toNat % 65536 + 1) := by decide +kernel

theorem witness_SyncRefusals :
    let q := reqA .faa 1
    let s := sH (kHive 0 2 [q])
    (unitSync s (.hive cl0)).held = [] ∧ (unitSync s (.hive cl0)).arrived = [q] ∧ objUnit q.obj = .hive cl0 ∧ storesPending s q = false ∧ objRefusal s 0 q.obj = some 3 := by decide +kernel

theorem witness_SyncCancels :
    (∃ q ∈ [reqA .wait 9], q.src = .core 0 1 ∧ q.tid = 7) ∧ (∃ w ∈ [(⟨reqA .wait 9, 0⟩ : Waiter)], w.q.src = .core 0 1 ∧ w.q.tid = 7) := by decide

theorem witness_HiveObjects :
    (NoOwnSyncs sR (.hive cl0) (.vf p0) ∧ ∀ q ∈ (getCl sR 0).hive.arrived, q.obj ≠ o5) ∧
    (Admits sR (.vf p0) (.cluster 0) (objCfgCheck sR o5 0x70001) 0 ∧ bit (0x70001 : Word) 16 = true ∧ bit (0x70001 : Word) 0 = true ∧ fld (0x70001 : Word) 2 1 = 0 ∧ fld (0x70001 : Word) 18 17 = 3) ∧
    (let s := sH (kHive 1 2 []); Admits s (.vf p0) (.cluster 0) (objCfgCheck s o5 0x10000) 0 ∧ bit (clReg (getCl s 0) 0x102C) 0 = true ∧ Admits s (.vf p0) (.cluster 0) (fun p => objRefusal s p o5) 0 ∧
      Admits s (.vf p0) (.cluster 0) (objCfgCheck s o5 0x60002) 0) ∧
    (fnLive sR (.vf p0) = true ∧ fnHeld sR (.vf p0) = false ∧ pmActive sR = true ∧ fnPid sR (.vf p0) = some 0 ∧ objRefusal sR 0 o5 = some 3) := by
  refine ⟨⟨fun h e => (nomatch e), by decide⟩, ?_⟩
  decide +kernel

/-- Port 0 with an active link; object 5 with a configuration and a target; the value and reason of each check. -/
def po5 : ObjRef := .port l0 5
def sPo (st cfg tgt lock : Word) : State :=
  { sR with lnks := [(0, { Lnk.reset with regs := [(0x8, st), (0x2054, cfg), (0x2058, tgt)] })], hub := { hR with regs := [(0x4, 1), (0x1024, lock)] } }
theorem witness_PortObjects :
    (NoOwnSyncs (sPo 0 0 0 0) (.port l0) (.vf p0) ∧ ∀ q ∈ (getLnk (sPo 0 0 0 0) 0).sync.arrived, q.obj ≠ po5) ∧
    (∀ v ∈ [0x70001, 0x70003, 0x70005, 0x70007], let s := sPo 0 0 0 1
      Admits s (.vf p0) (.lp 0) (objCfgCheck s po5 (w32 v)) 0 ∧ bit (mwApply 7 0 (w32 v)) 0 = true ∧ fld (mwApply 7 0 (w32 v)) 2 1 = (v % 8) / 2) ∧
    (lnkTrained (sPo 0 0 0 1) 0 = false ∧ lnkTrained (sPo 6 0 0 1) 0 = true ∧ locked (sPo 6 0 0 1) (.lp 0) = true ∧ locked (sPo 6 0 0 0) (.lp 0) = false ∧
      128 ≤ fld (lnkReg (getLnk (sPo 6 0 0x80 1) 0) 0x2058) 7 0) ∧
    (let s := sPo 6 1 0 1
     Admits s (.vf p0) (.lp 0) (objCfgCheck s po5 0x10000) 0 ∧ bit (lnkReg (getLnk s 0) 0x2054) 0 = true ∧ bit (mwApply 7 1 0x10000) 0 = false ∧ Admits s (.vf p0) (.lp 0) (fun p => objRefusal s p po5) 0 ∧
       cfgMode 1 = 0) ∧
    (let s := sPo 6 3 0 1; Admits s (.vf p0) (.lp 0) (fun p => objRefusal s p po5) 0 ∧ cfgMode 3 ≠ 0) := by
  refine ⟨⟨fun h e => (nomatch e), by decide⟩, ?_⟩
  decide +kernel/-! ### Witnesses: training -/
/-- An update station of partition 0 with one region of a record at 0 and step 7 open; its kernel is one word. -/
def kStn (hi : Word) (stn : Station) : Mc := { Mc.reset with regs := [(0x1000, 0x11), (0x1004, 1), (0x1014, 1), (0x1804, hi)], stn := { stn with openStep := some 7 } }
def pMap : Part := { pOpen with regs := [(0x10, 1), (0x164, 1)], pt2 := [(0, 1)], pt3 := [(0, 1)], fn := { FnState.reset with cfg := [(4, 4)] } }
def sG (k : Mc) : State := { sR with parts := [(0, pMap)], mcs := [(0, k)] }
def tileF : GradTile := ⟨0, 7, 255, []⟩
def gp (q a : Nat) (st : BitVec 16) : GradPkt := ⟨0, a, q, st, List.replicate 256 1⟩
def kEnds (s : State) (k : Mc) : KernelEnd :=
  (kernelGo 0 (kernelWords k) kernelBound { State.reset with free := s.free + 1, cores := [(0, kernelCore
    { m := 0, g := (unscale k.stn.lse tileF.frame).1, live := [List.replicate 4096 0], cache := List.replicate 2048 0, hp := k.stn.hp,
      seed := (takeFree 80 s).1.extractLsb' 0 64, tag := (takeFree 80 s).1.extractLsb' 64 16 })] }).1
def endsDone : KernelEnd → Bool | .done _ => true | _ => false
def endsRunning : KernelEnd → Bool | .running => true | _ => false
/-- The station's record is SPLIT; cluster 8 holds its ring, with `t` as TAIL. -/
def kSplit (w : Option Work) : Mc := { (kStn 0 { Station.reset with tiles := [tileF], work := w }) with regs := [(0x1000, 0x11), (0x1004, 1), (0x1014, 0x800001)] }
def sSplit (w : Option Work) (t : Word) : State := { sG (kSplit w) with clusters := [(8, { Cluster.reset with regs := [(0x1850, 3), (0x1854, 0x700000), (0x1858, t)] })] }
def endsTrap : KernelEnd → Bool | .trap _ => true | _ => false
def okT (e : Except RlFail (List (List Byte))) : Bool := match e with | .ok _ => true | .error _ => false

theorem witness_GradientPackets :
    let k := kStn 0 Station.reset
    (openFor Mc.reset 0 = none) ∧ (openFor k 0 = some 7 ∧ (gp 0 0 9).step ≠ 7 ∧ (gp 0 0 9).step ≠ 7 + 1) ∧ (recordOf k 0x4000 = none ∧ recordOf k 0 ≠ none) ∧
    ([({ tileF with got := 1 } : GradTile)].find? (tileWants (gp 1 0 7)) = some { tileF with got := 1 } ∧ [tileF].find? (tileWants (gp 1 0 7)) = none) ∧
    (stnBlocks k + tileBlocks k 0 ≤ 512 ∧ stnBlocks k < 512) ∧
    (512 ≤ stnBlocks { k with stn := { k.stn with tiles := List.replicate 512 { tileF with addr := 0x4000 } } }) ∧
    (let h : Mc := { k with regs := [(0x1000, 0x11), (0x1004, 1), (0x1014, 0x800001)], stn := { k.stn with tiles := List.replicate 510 { tileF with addr := 0x4000 } } }
     stnBlocks h < 512 ∧ 512 < stnBlocks h + tileBlocks h 0 ∧ recordOf h 0 ≠ none) := by decide +kernel

theorem witness_UpdateTiles :
    (∀ hi ∈ [0x40040000, 0xFC000000],
      let k := kStn (BitVec.ofNat 32 hi) { Station.reset with tiles := [tileF] }
      openFor k (stnPid k) = some 7 ∧ stnTrapped k = false ∧ stepLost (getPart (sG k) 0) = false ∧ k.stn.work = none ∧
        (k.stn.tiles.filter (fun t => t.got == 255#8 && t.step == 7)).head? = some tileF ∧ printHolds (sG k) 0 0 0 0 0 = false ∧
        recordOf k 0 = some (0, 0) ∧ regSplit k 0 = false ∧ regM k 0 = 0 ∧ okB (tierRead (sG k) ⟨0, mcCluster 0, true⟩ 2 0 8) = true ∧ pageOf (sG k) 0 2 0 = some 1 ∧
        okB (tierRead (sG k) ⟨0, mcCluster 0, true⟩ 2 0x800 0x800) = true ∧ okT (readState (sG k) ⟨0, mcCluster 0, true⟩ k 0 0 0 0 [0]) = true) ∧
    (let k := kStn 0x40040000 { Station.reset with tiles := [tileF] }; endsDone (kEnds (sG k) k) = true) ∧
    (let k := kStn 0xFC000000 { Station.reset with tiles := [tileF] }; endsTrap (kEnds (sG k) k) = true) ∧
    (stepLost { pMap with regs := [(0x114, 0x80000)] } = true ∧ ([tileF].filter (fun t => t.got == 255#8 && t.step == 7)).head? = some tileF) := by decide +kernel

set_option Elab.async false in
/-- A kernel that branches to itself is still running after a command. -/
theorem witness_UpdateTiles_running :
    (let k0 := kStn 0 { Station.reset with tiles := [tileF] }
     let k : Mc := { k0 with regs := [(0x1000, 0x11), (0x1004, 1), (0x1014, 1), (0x1814, 0x20000008)] }
     endsRunning (kEnds (sG k) k) = true ∧ openFor k (stnPid k) = some 7 ∧ recordOf k 0 = some (0, 0) ∧ regSplit k 0 = false) := by decide +kernel

/-- A print of step 5 whose record's pointer word names that step's slot. -/
def sHold : State :=
  { sG { (kStn 0 { Station.reset with tiles := [tileF] }) with frames := [(0, [(0, 2), (2, 5)])] } with
    parts := [(0, { pMap with regs := [(0x10, 1), (0x184, 0x20005)], step := { StepBlock.reset with print := some ⟨none, [(0, 0, 0)], [], 0, [], 0⟩ } })] }
theorem witness_UpdateTiles_waits :
    (printHolds sHold 0 0 0 0 0 = true ∧ stepLost (getPart sHold 0) = false) ∧
    (splitIdle (sSplit none 0) 0 = true ∧ splitIdle (sSplit none 1) 0 = false ∧ regSplit (kSplit none) 0 = true ∧ recordOf (kSplit none) 0 = some (0, 0) ∧
      okB (tierRead (sSplit none 0) ⟨0, 8, true⟩ 2 0 8) = true ∧ okB (tierRead (sSplit none 0) ⟨0, 8, true⟩ 2 0x800 0x800) = true ∧
      printHolds (sSplit none 0) 0 0 0 0 0 = false ∧ (kSplit (some ⟨0, .fetch⟩)).stn.work = some ⟨0, .fetch⟩ ∧ (kSplit (some ⟨0, .store []⟩)).stn.work = some ⟨0, .store []⟩) := by
  decide +kernel

theorem witness_StepMessages :
    (let b : StepBlock := { StepBlock.reset with compMsgs := 1, comp := 0xFFFE, forces := [7], due := 1, decision := some (7, true), ackMsgs := 1, acked := 0xFFFE }
     bit b.compMsgs 0 = true ∧ b.forces = [7] ∧ bit b.due 0 = true ∧ b.decision = some (7, true) ∧ bit b.ackMsgs 0 = true ∧ (∀ i, i < 16 → (i = 0 ∨ bit b.acked i = true)) ∧
       b.closing = false ∧ stnOn (kStn 0 Station.reset) = true ∧ stnPid (kStn 0 Station.reset) = 0) ∧
    (bit (0x10007 : Word) 16 = true ∧ ({ StepBlock.reset with comp := 0xFFFF } : StepBlock).comp = 0xFFFF#16 ∧ StepBlock.reset.decision = none ∧ ¬ (∀ i, i < 16 → (i = 0 ∨ bit (0 : BitVec 16) i = true))) := by decide

theorem witness_StepRegisters :
    (PartAdmits sR (.vf p0) p0 0 ∧ PartAdmits sR .pf p0 0xF) ∧
    (bit (mwApply 7 0 0x10001) 0 = true ∧ bit (mwApply 7 0 0x10001) 1 = false ∧ bit (mwApply 7 0 0x20002) 1 = true ∧ bit (mwApply 7 0 0x20002) 0 = false) ∧
    (bit (0x10007 : Word) 16 = true ∧ bit (partReg pOpen 0x114) 16 = false ∧ bit (partReg pOpen 0x1A0) 0 = false) ∧
    (((30 : Word).setWidth 8).toInt = 30 ∧ ((31 : Word).setWidth 8).toInt = 31) := by decide

theorem witness_UpdateStations :
    (Admits sL (.vf p0) (.mc 0) (updRefusal sL 0 (mwStaysOn (mcReg (getMc sL 0) 0x1000) 0x10001)) 0 ∧ stationOwner sL 0 = some 0 ∧ bit (mwApply 0xFF 0 0x10001) 0 = true ∧
      updCheck sL 0 0 (Mc.reset.setReg 0x1000 1) = 0 ∧ updCheck sL 0 0 (Mc.reset.setReg 0x1000 9) = 0x06 ∧ updCheck sR 0 0 (Mc.reset.setReg 0x1000 1) = 0x10) ∧
    (let k := kStn 0 Station.reset
     Admits (sG k) (.vf p0) (.mc 0) (updRefusal (sG k) 0 (mwStaysOn (mcReg k 0x1000) 0x10000)) 0 ∧ bit (mcReg k 0x1000) 0 = true ∧ bit (mwApply 0xFF (mcReg k 0x1000) 0x10000) 0 = false) ∧
    (let k : Mc := { Mc.reset with regs := [(0x1014, 0x800001)] }
     let s : State := { sG k with hub := sL.hub, parts := [(0, { pMap with grants := { Grants.none_ with stations := 1 } })] }
     let new := mwApply 0xFF 0 0x110011
     updCheck s 0 0 (k.setReg 0x1000 new) = 0 ∧ (List.range 4).any (fun r => bit new (4 + r) && regSplit k r) = true) ∧
    (Admits sR (.vf p0) (.mc 0) (fun x => ownCheck sR x 0 true false) 0 ∧ stnOn (getMc sR 0) = false ∧ stnOn (kStn 0 Station.reset) = true) := by decide +kernel

/-- A print of one region that runs, to the host (w = 1) or to port 0 (w = 3): records `todo`, completion records `regs`. -/
def pPrint (w : Word) (todo : List (Nat × Nat × Nat)) (regs : List (Nat × Nat)) (ring : Word) : Part :=
  { pMap with regs := [(0x10, 1), (0x88, ring), (0x164, 1), (0x180, w), (0x184, 0x20000)], step := { StepBlock.reset with print := some ⟨none, todo, regs, 0, [], 0⟩ } }
def sPrint (w : Word) (todo : List (Nat × Nat × Nat)) (regs : List (Nat × Nat)) (ring : Word) : State := { sG (kStn 0 Station.reset) with parts := [(0, pPrint w todo regs ring)] }
def hsec0 : HostSec := ⟨0, 0, 0, 0, 0, 0, .session 0, 0, 0, []⟩
def trained : Lnk := { Lnk.reset with regs := [(8, 6)] }
theorem witness_Prints :
    (PartAdmits sR (.vf p0) p0 0 ∧ bit (mwApply 0x3F 0 0x30003) 0 = true ∧ bit (mwApply 0x3F 0 0x30003) 1 = true ∧ lnkTrained sR 0 = false ∧
      printCheck { sR with lnks := [(0, trained)] } 0 3 = 0 ∧ lnkTrained { sR with lnks := [(0, trained)] } 0 = true ∧
      printCheck { sG (kStn 0 Station.reset) with parts := [(0, { pMap with regs := [(0x10, 1), (0x164, 1), (0x90, 0x20000)] })] } 0 1 = 3) ∧
    (okB (wholeRecord (sPrint 3 [(0, 0, 0)] [] 0) 0 (kStn 0 Station.reset) 0 0) = true ∧ printQueued Lnk.reset = false ∧ printQueued { Lnk.reset with txq := printItems 0 [[]] } = true ∧
      bit (partReg (pPrint 3 [] [] 0) 0x180) 1 = true) ∧
    (hostOpen (sPrint 1 [(0, 0, 0)] [] 0) 0 = true ∧ hostOpen { sR with parts := [(0, pOpen)] } 0 = false ∧
      writeFail (sPrint 1 [(0, 0, 0)] [] 0) ⟨0, 0, false⟩ 3 [(0, List.replicate 512 1)] = none ∧ hwrOn (pPrint 1 [] [] 0) = false ∧ hwrOn (pPrint 1 [] [(0, 0)] 13) = true ∧
      hwrRoom (pPrint 1 [] [(0, 0)] 13) = 63 ∧ hwrRoom { (pPrint 1 [] [(0, 0)] 13) with regs := [(0x88, 13), (0x90, 63)] } = 0) ∧
    (bit (mwApply 1 0 0x10001) 0 = true ∧ printCheck sR 0 0 = 0x02) := by decide +kernel

/-- What a print waits for: the manifest for the host in sectors that it covers in part, asked for or not, and come; a whole record. -/
theorem witness_Prints_reads :
    let r : PrintRun := ⟨some (List.replicate 100 1), [(0, 0, 0)], [], 0, [], 0⟩
    let s := sPrint 1 [(0, 0, 0)] [] 0
    let s1 : State := { s with hub := { s.hub with host := [hsec0] } }
    (writeFail s1 ⟨0, 0, false⟩ 3 [(0, List.replicate 100 1)] = none ∧ runPieces s1 0 (sectorRuns (printParts s1 0 r (List.replicate 100 1))) ≠ [] ∧ hostOpen s1 0 = true) ∧
    (tfind (pPrint 1 [] [] 0).reads 0 = none ∧ tfind ({ pPrint 1 [] [] 0 with reads := [(0, [])] } : Part).reads 0 = some [] ∧
      tfind ({ pPrint 1 [] [] 0 with reads := [(0, [4])] } : Part).reads 0 = some [4]) ∧
    (let b : List Byte := List.replicate 512 1
     writeFail s ⟨0, 0, false⟩ 3 [(0, b)] = none ∧ printParts s 0 { r with head := some b } b = [] ∧ recordHost (kStn 0 Station.reset) 0 0 = []) := by decide +kernel

/-- A record with SPLIT state, some of which is in host memory: the proof asks for it. -/
theorem witness_RecordsAndProof_reads :
    let s : State := { sPrint 1 [(0, 0, 0)] [] 0 with mcs := [(0, kSplit none)] }
    hostPieces s 0 (recordHost (kSplit none) 0 0) ≠ [] ∧ hostPieces (sG Mc.reset) 0 (recordHost Mc.reset 0 0) = [] ∧
      tfind ({ pMap with reads := [(1, [4])] } : Part).reads 1 = some [4] ∧ tfind ({ pMap with reads := [(1, [])] } : Part).reads 1 = some [] := by decide +kernel

theorem witness_RecordsAndProof :
    (PartAdmits sR (.vf p0) p0 0 ∧ bit (mwApply 0x7F 0 0x210021) 0 = true ∧ fld (mwApply 0x7F 0 0x210021) 6 2 = 8 ∧ fld (mwApply 0x7F 0 0x10001) 6 2 < 8 ∧
      srecCheck (sG Mc.reset) 0 (pMap.setReg 0x1C0 0x21) = 0) ∧
    (bit (mwApply 3 0 0x10001) 0 = true ∧ proofCheck (sG Mc.reset) 0 false = 0 ∧ proofCheck sR 0 false = 0x02) ∧
    (let s : State := { sG Mc.reset with parts := [(0, pMap.setReg 0x20C 1)] }
     bit (partReg (getPart s 0) 0x20C) 0 = true ∧ okT (wholeRecords s 0 (allRecords s 0)) = true ∧ okB (tierRead s ⟨0, 0, true⟩ 2 0 64) = true ∧
       writeFail s ⟨0, 0, true⟩ 2 [(0, proofTable s 0 [] [])] = none) := by decide +kernel
/-! ### Witnesses: packets and reduction -/
def pk (src dst : Node) (b : Body) : Packet := ⟨0, src, dst, 1, b⟩
/-- Partition 0's port has an access in flight. -/
def pFly : Part := { pMap with ind := { IndState.reset with flight := some ⟨.vf p0, true, 0xF, 1, none⟩ } }
def sK (q : Packet) : State := { sR with parts := [(0, pFly)], mesh := [q] }
def lpdV : View := ⟨mkD 0 2 0 2 2 2 4, 0, 0⟩
def jobP : Job := { jobA lpdV vw with reads := [(0, 8)], pages := [0] }
/-- A job whose headers are on their way (R204). -/
def jobH : Job := { jobP with a := ⟨setFld (mkD 0 2 0 32 32 2 64) 67 67 1, 0, 0⟩, body := false }
def redG (cfg : Word) (x : RedGroup) (n : Nat) (tk : List Token) : Lnk :=
  { trained with regs := [(8, 6), (0x2804, cfg), (0x280C, w32 n), (0x2814, 1)], groups := [(0, x)], sinkq := [(0, tk)] }
def tileT : Token := ⟨5, 0, .tile false 32 32 (List.replicate 2048 0)⟩
def redE : RedEntry := ⟨0, 5, 0, List.replicate 1024 0⟩

theorem witness_MeshPackets :
    (∀ b ∈ [Body.regWrite 0x40000 7, .regRead 0x40000, .ack, .data 7, .refusal 3, .sync (reqA .faa 1), .cancel o5 (.core 0 1) 7],
      (sK (pk (.hub 0) (.core 0) b)).mesh[0]? = some (pk (.hub 0) (.core 0) b) ∧
      (sK (pk (.hub 0) (.core 0) b)).mesh.find? (fun x => x.src == .hub 0 && x.dst == .core 0) = some (pk (.hub 0) (.core 0) b) ∧
      stopped (sK (pk (.hub 0) (.core 0) b)) (.hub 0) = false ∧ stopped (sK (pk (.hub 0) (.core 0) b)) (.core 0) = false) ∧
    (let s := sK (pk (.hub 0) (.core 0) .ack)
     indLoc 0x40000 = .sram 0 0 ∧ locRefusal s 0 0 (some 7) (.sram 0 0) = none ∧ locRefusal s 0 0 none (.sram 0 0) = none ∧ sealedAt s (flightFn s 1) (.sram 0 0) = none ∧
       flightFn s 1 ≠ .pf ∧ locRefusal s 1 0 (some 7) (.sram 32 0) = some 3 ∧ locRefusal s 1 0 none (.sram 32 0) = some 3 ∧
       (indState s (tidPort 1)).flight = some ⟨.vf p0, true, 0xF, 1, none⟩) ∧
    (let s := sK (pk (.hub 0) (.core 0) .ack); sealedOwner s (flightFn s 1) (.sram 0 0) = none ∧
     sealedOwner { s with parts := [(0, { pOpen with regs := [(0x10, 2)] })] } .pf (.desc 0 0 0 0) = some 0 ∧ locRefusal { s with parts := [(0, { pOpen with regs := [(0x10, 2)] })] } 0 0xF none (.desc 0 0 0 0) = none) ∧
    (stopped (sK (pk (.hub 0) (.mc 0) .ack)) (.mc 0) = false ∧ stopped { sR with hub := { hR with regs := [(4, 1), (0x1004, 2)] } } (.mc 0) = true) ∧
    (let s : State := { sK (pk (.cluster 0) (.mc 0) (.pageRead 0 0 0)) with clusters := [(0, withJob Cluster.reset jobP)] }
     (getChan (getCl s 0) 0).job = some jobP ∧ 0 ∈ jobP.pages ∧ jobP.pid = 0 ∧ pageRefusal s 0 2 0 false = none ∧ pageOf s 0 2 0 = some 1 ∧ (getMc s 0).poison.length < 256) := by decide +kernel

/-- The operator's access to an entry of a sealed partition; a container's header; link payload from inside for a port of no partition; a burst
that was corrected and one that was not. -/
theorem witness_MeshPackets_more :
    (let s : State := { sK (pk (.hub 0) (.cluster 0) .ack) with clusters := [(0, kR 1 [])], parts := [(0, { pFly with regs := [(0x10, 2)], ind := { IndState.reset with flight := some ⟨.pf, true, 0xF, 1, none⟩ } })] }
     indLoc (w32 (routeOff 0 0 3)) = .cl (routeOff 0 0 3) ∧ entryOwner (getCl s 0) (routeOff 0 0 3) = some 0 ∧ partState s 0 = SEALED ∧ flightFn s 1 = .pf) ∧
    (let s : State := { sK (pk (.cluster 0) (.mc 0) (.pageRead 0 0 0)) with clusters := [(0, withJob Cluster.reset jobH)] }
     jobH.body = false ∧ jobH.pages.erase 0 = [] ∧ jobH.tags = [] ∧ dSpace jobH.a.d = 2 ∧ rangePages (bodyRanges s (jobWho s 0 0 jobH) jobH.a) = [] ∧
       jobP.body = true) ∧
    (let s := sK (pk (.cluster 0) (.lp 0) (.link [1])); ownCheck s 0 (lpid (getLnk s 0)) (lnkOn (getLnk s 0)) false = none) ∧
    (∀ b ∈ [(⟨0, true⟩ : Burst), ⟨0, false⟩], b.unit < 1) := by decide +kernel

/-- R139: the paths between the diagonal dies. R111: the hub's corner clusters. R137: the header of a register write. -/
theorem test_meshPath :
    dieSteps (meshPath (.cluster 0) (.cluster 159)) = [(0, 1), (1, 3)] ∧ dieSteps (meshPath (.cluster 159) (.cluster 0)) = [(3, 2), (2, 0)] ∧
    dieSteps (meshPath (.cluster 79) (.cluster 80)) = [(1, 0), (0, 2)] ∧ dieSteps (meshPath (.cluster 80) (.cluster 79)) = [(2, 3), (3, 1)] ∧
    (meshPath (.cluster 0) (.hub 0)).getLast? = some 39 ∧ (meshPath (.hub 0) (.cluster 159)).head? = some 120 := by decide +kernel
theorem test_header :
    let h := headerFlit { pid := 3, src := .lp 2, dst := .cluster 41, tid := 9, body := .regWrite 0x12345678 7 }
    h.setWidth 32 = 0x48008173 ∧ (h.extractLsb' 64 32) = 0x12345678 ∧ (h.extractLsb' 48 16) = 9 := by decide +kernel
theorem witness_MeshPackets_die :
    (let q := pk (.lp 0) (.hub 0) .ack; (sK q).mesh.find? (fun x => x.src == .lp 0 && x.dst == .hub 0) = some q ∧ lpCluster 0 / 40 = 0) ∧
    (let q := pk (.cluster 0) (.mc 0) .ack; (sK q).mesh.find? (fun x => x.src == .cluster 0 && x.dst == .mc 0) = some q ∧ 0 / 40 = mcCluster 0 / 40) := by decide +kernel

/-- The page read of `witness_MeshPackets` reads units of its page. -/
theorem witness_MeshPackets_units : pageUnits jobP 0 ≠ [] := by
  intro h
  have h1 := congrArg List.length h
  unfold pageUnits at h1
  rw [List.length_mergeSort] at h1
  revert h1
  decide +kernel

/-- The port beyond the group carries the partition's session, or another's. -/
theorem witness_Reduction_serves :
    linkServes { sR with lnks := [(0, redG 0x1001 RedGroup.reset 1 [tileT]), (1, trained)] } 1 0 = true ∧
    linkServes { sR with lnks := [(0, redG 0x1001 RedGroup.reset 1 [tileT]), (1, { trained with regs := [(8, 0x106)] })] } 1 0 = false := by decide

theorem witness_Reduction :
    (rgOn (redG 0 RedGroup.reset 1 []) 0 = true ∧ rgOn trained 0 = false) ∧
    (let k := redG 0 RedGroup.reset 1 [tileT]
     let s : State := { sR with lnks := [(0, k)] }
     tget k.sinkq 0 [] = [tileT] ∧ (tileT.tag, 0) ∉ (group k 0).used ∧ storeLocal s 0 < 192 ∧ storeAll s 0 < 256 ∧ rgRank k 0 = 0 ∧ rgLast k 0 = 0) ∧
    (let k := redG 0x1001 RedGroup.reset 1 [tileT]
     let s : State := { sR with lnks := [(0, k), (1, trained)] }
     rgRank k 0 = 0 ∧ rgLast k 0 ≠ 0 ∧ storeLocal s 0 < 192 ∧ storeAll s 0 < 256) ∧
    (let k := redG 0x11 { RedGroup.reset with parts := [redE] } 1 [tileT]
     let s : State := { sR with lnks := [(0, k)] }
     rgRank k 0 ≠ 0 ∧ rgRank k 0 = rgLast k 0 ∧ (group k 0).parts.find? (fun p => p.step == rgStep k 0 && p.tag == 5) = some redE ∧ storeLocal s 0 < 192 ∧ storeAll s 0 < 256) ∧
    ((tileT.tag, 0) ∈ [((5 : Tag), 0)]) ∧
    (let k := redG 0 { RedGroup.reset with results := [redE] } 1 []
     let s : State := { sR with lnks := [(0, k)], parts := [(0, pOpen.setReg 0x114 0x10000)] }
     (group k 0).results.find? (fun r => stepOpenFor s (rgPid k 0) r.step) = some redE ∧ fld (lnkReg k (rgOff 0 + 0x10)) 16 0 + 1 = rgTiles k 0 ∧ stepOpenFor sR 0 redE.step = false) := by
  decide +kernel

theorem witness_ReductionGroups :
    (let s : State := { sL with lnks := [(0, { trained with regs := [(8, 6), (0x280C, 1)] })] }
     Admits s (.vf p0) (.lp 0) (rgRefusal s 0 0 (mwStaysOn 0 0x10001)) 0 ∧ bit (mwApply 1 0 0x10001) 0 = true ∧ rgCheck s 0 0 0 = 0 ∧ rgCheck sL 0 0 0 = 6 ∧ rgCheck sR 0 0 0 = 0x10) ∧
    (let k := { redG 0 RedGroup.reset 1 [tileT] with regs := [(8, 6), (0x2800, 1), (0x2814, 1)] }
     let s : State := { sR with lnks := [(0, k)] }
     Admits s (.vf p0) (.lp 0) (rgRefusal s 0 0 (mwStaysOn 1 0x10000)) 0 ∧ bit (lnkReg k (rgOff 0)) 0 = true ∧ bit (mwApply 1 1 0x10000) 0 = false ∧ tget k.sinkq 0 [] ≠ []) := by decide +kernel
/-! ### Witnesses: link ports -/
/-- A port in a state, its receive spare free. -/
def lk (st : Nat) : Lnk := { Lnk.reset with regs := [(8, w32 (0x70 + st))] }
def dk : DirKey := ⟨0, 0⟩
/-- Port 0 enabled and ACTIVE. -/
def lkOn : Lnk := { lk 6 with regs := [(0, 1), (8, 0x76)], keys := { LinkKeys.none_ with tx := [(0, dk)], rx := [(0, dk)] } }
def sLk (k : Lnk) : State := { sR with lnks := [(0, k)], hub := { hR with regs := [(4, 1), (0x1008, 100), (0x1024, 1)] } }
def fl (typ : Nat) (seq : BitVec 12) (scrub : Bool) (body : List Byte) : Flit :=
  let f : Flit := ⟨BitVec.ofNat 4 typ, false, true, false, scrub, seq, 0, false, false, false, 3, if typ = 2 then 1 else 0, 0, padFlit body⟩
  { f with crc := flitCrc f }
def faaBody : List Byte := [0, 0, 2, 0, 5, 0, 0, 0, 1, 0, 0, 0]
def it (vc : Bool) (typ : Nat) : LinkItem := ⟨vc, typ, 0, padFlit []⟩

theorem witness_LinkTraining :
    (∀ st ∈ [1, 2, 3, 4, 5, 6, 7], lst (lk st) = st) ∧ 4 ≤ lanes 0x1E ∧ 4 ≤ lanes 0x0F ∧ lanes 0x07 < 4 ∧ lostLane 0x1E = some 0 ∧
    (let f := lnkFixed (sLk (lk 5)) (lk 5); f = false ∧ ¬(f = true ∧ (lk 5).keys.mine = none)) ∧
    (let s : State := { sLk (lk 5) with parts := [(0, pOpen.setReg 0x10 0x42)] }; lnkFixed s (lk 5) = true ∧ (lk 5).keys.mine = none ∧ s.hub.rot.sessions ≠ 0xFFFFFFFF#32) ∧
    (let k : Lnk := { lk 5 with keys := { LinkKeys.none_ with mine := some 7 } }; k.keys.mine = some 7 ∧ k.keys.tx = [] ∧ lkOn.keys.tx ≠ []) ∧
    (let k : Lnk := { lk 6 with keys := { LinkKeys.none_ with rekey := true } }; lst k = 6 ∧ k.keys.rekey = true ∧ lkOn.keys.rekey = false) ∧
    (let s := sLk (lk 4); fld (hubReg s.hub 0x8) 15 0 * 16 + 0 = 0xFFFF0 ∧ fld (lnkReg ((lk 4).setReg 0xC 0x100FFFF) 0xC) 15 0 * 16 + fld (lnkReg ((lk 4).setReg 0xC 0x100FFFF) 0xC) 27 24 = 0xFFFF1) ∧
    (let s : State := { sLk (lk 5) with parts := [(0, pOpen.setReg 0x10 3)] }; inPass s (lpid (lk 5)) = true ∧ inPass (sLk (lk 5)) (lpid (lk 5)) = false) ∧
    (bit ({ lk 2 with spareBad := 3 } : Lnk).spareBad 0 = true ∧ lanes (0x1F &&& 0xF#5) = 4 ∧ lanes (0x17 &&& 0xF#5) < 4 ∧ bit (lk 2).spareBad 0 = false) ∧
    (bit (0x1000FF : Word) 20 = true ∧ fld (0xFFFF : Word) 15 0 = 0xFFFF ∧ bit (0xFFFF : Word) 20 = false) := by decide

theorem witness_LinkControl :
    (let s := sLk (lk 0)
     Admits s (.vf p0) (.lp 0) (lnkRefusal s 0 (mwStaysOn 0 0x10001)) 0 ∧ bit (mwApply 0x1F 0 0x10001) 0 = true ∧ bit (mwApply 0x1F 0 0x10001) 1 = false ∧ lnkCheck s 0 0 = 0 ∧
       lnkCheck sR 0 0 = 0x10 ∧ bit (hubReg s.hub 0x1024) 0 = true ∧ portOwner s 0 = some 0 ∧ (∀ n, n < 16 → lst (getLnk s n) = 0) ∧ HubAdmits s .pf) ∧
    (let s := sLk lkOn
     Admits s (.vf p0) (.lp 0) (lnkRefusal s 0 (mwStaysOn 1 0x10000)) 0 ∧ bit (mwApply 0x1F 1 0x10000) 0 = false ∧
     Admits s (.vf p0) (.lp 0) (lnkRefusal s 0 (mwStaysOn 1 0x20002)) 0 ∧ bit (mwApply 0x1F 1 0x20002) 0 = true ∧ bit (mwApply 0x1F 1 0x20002) 1 = true ∧ bit (mwApply 0x1F 1 0x20002) 2 = false ∧
     bit (mwApply 0x1F 1 0x40004) 0 = true ∧ bit (mwApply 0x1F 1 0x40004) 1 = false ∧ bit (mwApply 0x1F 1 0x40004) 2 = true ∧
       lnkFixed s lkOn = false ∧ lst lkOn = 6 ∧ lkOn.fault = none ∧ lkOn.keys.rekey = false ∧ rxSpared lkOn = false ∧ bit lkOn.spareBad 0 = false) := by decide +kernel

theorem witness_LaneFaults :
    ({ lkOn with txLane := some 2 } : Lnk).txLane = some 2 ∧ lkOn.txLane ≠ some 2 ∧
    lst lkOn = 6 ∧ rxSpared lkOn = false ∧ lkOn.fault = none ∧ bit lkOn.spareBad 0 = false ∧ txSpared lkOn = false ∧ rxSpared (lkOn.setReg 8 6) = true ∧
    txSpared (lkOn.setReg 8 0x86) = true ∧ ({ lkOn with fault := some 2 } : Lnk).fault = some 2 ∧ lkOn.keys.due = false ∧ partState sR 0 ≠ ABSENT ∧
    bit ({ lkOn with spareBad := 2 } : Lnk).spareBad 1 = true ∧ portOwner (sLk lkOn) 0 = some 0 ∧
    (let s : State := { sLk { lkOn with fault := some 2 } with hub := { hR with molts := [.lane ⟨0, by decide⟩ false 2] } }
     (getLnk s 0).fault = some 2 ∧ FaultUnit.lane ⟨0, by decide⟩ false 2 ∈ s.hub.molts ∧ ({ lkOn with replay := [fl 3 0 false []] } : Lnk).replay ≠ []) := by decide +kernel

theorem witness_FlitsReceived :
    (fl 3 0 false []).payload.length = 240 ∧ ({ fl 3 0 false [] with payload := [] } : Flit).payload.length ≠ 240 ∧ lkOn.deaf = false ∧ lkOn.rxSeq = 0 ∧
    (fl 0 0 true []).typ = 0 ∧ (fl 0 0 false []).scrub = false ∧ (fl 3 1 false []).seq.toNat ≠ lkOn.rxSeq ∧ 2 ≤ (fl 3 0 false []).typ.toNat ∧ (fl 1 0 false []).typ = 1 ∧ 8 < (fl 9 0 false []).typ.toNat ∧
    (fl 3 0 false []).crc = flitCrc (fl 3 0 false []) ∧ (∀ n ∈ [0, 15, 3, 0], n ≤ 15) ∧ ¬ (∀ n ∈ [16, 0, 0, 0], n ≤ 15) ∧ lst (lk 7) = 7 ∧ 4 ≤ lst lkOn ∧ lst lkOn ≤ 6 ∧
    ([fl 3 9 false []].findIdx? (fun x => x.seq.toNat == 9) = some 0) ∧
    (let k : Lnk := { lkOn with grpRx := [fl 4 0 false faaBody, fl 2 1 false []] }
     k.grpRx.takeWhile (fun f => f.typ != 2) = [fl 4 0 false faaBody] ∧ k.grpRx.drop 1 = [fl 2 1 false []] ∧ (fl 4 0 false faaBody).typ = 4 ∧
       (fl 4 0 false faaBody).payload.take 8 = [0, 0, 2, 0, BitVec.ofNat 8 5, BitVec.ofNat 8 0, 0, 0] ∧ k.held = [] ∧ inPass (sLk k) (lpid k) = false) ∧
    ([fl 2 1 false []].takeWhile (fun f => f.typ != 2) = []) := by decide +kernel

/-- A group of one flit that verifies: its payload and its tag are what sealing a plaintext gives. -/
theorem witness_FlitsReceived_group :
    let box := Config.gcm dk.key (dk.salt ++ 0#64) (flitAad (fl 4 0 false [])) (padFlit faaBody)
    let g : Flit := { fl 4 0 false [] with payload := box.1 }
    let tg : Flit := { fl 2 1 false [] with payload := padFlit (leBytes 8 0 ++ leBytes 16 box.2.toNat) }
    let k : Lnk := { lkOn with grpRx := [g, tg] }
    lst k = 6 ∧ k.grpRx.takeWhile (fun f => f.typ != 2) = [g] ∧ k.grpRx.drop 1 = [tg] ∧ g.typ = 4 ∧ g.vc = false ∧ tg.vc = false ∧ k.held = [] ∧
    (padFlit faaBody).length = 240 ∧ (padFlit faaBody).take 8 = [0, 0, 2, 0, BitVec.ofNat 8 5, BitVec.ofNat 8 0, 0, 0] ∧
    ∃ d, tfind k.keys.rx (b2n tg.keysel) = some d ∧ tg.info.toNat % 16 = [g].length ∧
      (let x := Config.gcm d.key (d.salt ++ BitVec.ofNat 64 (leNat (tg.payload.take 8))) ([g].flatMap flitAad) (padFlit faaBody)
       x.1 = [g].flatMap (·.payload) ∧ leBytes 16 x.2.toNat = (tg.payload.drop 8).take 16) :=
  ⟨rfl, rfl, rfl, rfl, rfl, rfl, rfl, rfl, rfl, dk, rfl, rfl, (List.append_nil _).symm, rfl⟩

/-- A flit sealed over a plaintext, and the tag of its group. -/
def sealed (g : Flit) (plain : List Byte) : Flit := { g with payload := (Config.gcm dk.key (dk.salt ++ 0#64) (flitAad g) plain).1 }
def tagFor (g : Flit) (plain : List Byte) : Flit :=
  { fl 2 1 false [] with payload := padFlit (leBytes 8 0 ++ leBytes 16 (Config.gcm dk.key (dk.salt ++ 0#64) (flitAad g) plain).2.toNat) }

/-- Whatever its type, a flit sealed so is a group that verifies. -/
theorem witness_FlitsReceived_verifies (g : Flit) (plain : List Byte) :
    ∃ d, tfind lkOn.keys.rx (b2n (tagFor g plain).keysel) = some d ∧ (tagFor g plain).info.toNat % 16 = [sealed g plain].length ∧
      (let x := Config.gcm d.key (d.salt ++ BitVec.ofNat 64 (leNat ((tagFor g plain).payload.take 8))) ([sealed g plain].flatMap flitAad) plain
       x.1 = [sealed g plain].flatMap (·.payload) ∧ leBytes 16 x.2.toNat = ((tagFor g plain).payload.drop 8).take 16) := by
  have ht : (tagFor g plain).payload.drop 8 = leBytes 16 (Config.gcm dk.key (dk.salt ++ 0#64) (flitAad g) plain).2.toNat ++ List.replicate 216 0 := by
    simp [tagFor, padFlit, leBytes]
  have hc : leNat ((tagFor g plain).payload.take 8) = 0 := by simp [tagFor, padFlit, leBytes, leNat]
  have ha : [sealed g plain].flatMap flitAad = flitAad g := List.append_nil _
  have hl : ∀ v, (leBytes 16 v).length = 16 := fun v => by simp [leBytes]
  refine ⟨dk, rfl, rfl, ?_, ?_⟩
  · simp only [hc, ha]
    exact (List.append_nil _).symm
  · simp only [hc, ha, ht, List.take_left' (hl _)]

/-- What a group holds: a fragment and a whole packet for a controller; flits of a partial and of a result, the last ones with their group; print data
with room and without, that ends its image and that does not. -/
theorem witness_FlitsReceived_kinds :
    (∀ ty ∈ [3, 6, 7, 8], [fl ty 0 false []].takeWhile (fun f => f.typ != 2) = [fl ty 0 false []] ∧ (fl ty 0 false []).typ.toNat = ty ∧ (fl ty 0 false []).vc = false) ∧
    (padFlit []).length = 240 ∧ headerNode (padFlit [0, 0x11, 0, 0]) = some (.mc 0) := by decide +kernel
theorem witness_FlitsReceived_sums :
    (let k := redG 0x11 { RedGroup.reset with own := [redE] } 1 []
     let s : State := { sR with lnks := [(0, k)] }
     homeOf s 0 0 0 false = some (0, 0) ∧ storeAll s 0 < 256 ∧ (group k 0).own.find? (fun y => y.step == 0 && y.tag == 5) = some redE ∧ (group k 0).own.find? (fun y => y.step == 0 && y.tag == 6) = none ∧
       rgRank k 0 = rgLast k 0) ∧
    homeOf { sR with lnks := [(0, redG 0x1001 RedGroup.reset 1 [])] } 1 0 0 true = some (0, 0) := by decide +kernel
theorem witness_FlitsReceived_prints :
    (printLen lkOn 0 (padFlit []) = (0, 64) ∧ (printLen lkOn 0 (padFlit [0, 0, 0, 0, 100])).2 > 240 ∧ fld (lnkReg lkOn 0x14) 17 0 = 0) ∧
    (let s : State := { sLk (lkOn.setReg 0x14 1) with parts := [(0, pMap)] }
     fld (lnkReg (getLnk s 0) 0x14) 17 0 = 1 ∧ pageOf s 0 2 0 = some 1 ∧ (getMc s 0).failed = 0 ∧ writeFail s ⟨0, 0, false⟩ 2 [(0, (padFlit []).take 64)] = none ∧ servedBlock s 0 = 0 ∧ inPass s 0 = false) := by decide +kernel
theorem witness_FlitsReceived_scrub :
    (let o : SyncReq := reqA .st 1
     let k : Lnk := { lkOn with fwd := [(3, o)] }
     k.fwd.all (fun e => e.2.op == .st && !(reqUnsent (sLk k) 0 0 e.1)) = true ∧ inPass { sLk lkOn with parts := [(0, pOpen.setReg 0x10 3)] } (lpid lkOn) = true) := by decide +kernel

theorem witness_FlitsSent :
    (inPass (sLk lkOn) (lpid lkOn) = false ∧ lkOn.held = [] ∧ lst lkOn = 6 ∧ lkOn.resend = none ∧ lkOn.replay.length < 256 ∧ lkOn.grpTx = 0 ∧ 0 < lkOn.cred0 ∧ 0 < lkOn.cred1) ∧
    (inPass { sLk lkOn with parts := [(0, pOpen.setReg 0x10 3)] } (lpid lkOn) = true) ∧
    (let k : Lnk := { lkOn with replay := [fl 3 0 false []], resend := some 0 }; k.resend = some 0 ∧ k.replay[0]? = some (fl 3 0 false []) ∧ tget k.resends 0 0 < 15 ∧ 15 ≤ tget ({ k with resends := [(0, 15)] } : Lnk).resends 0 0) ∧
    (256 ≤ (List.replicate 256 (fl 3 0 false [])).length) ∧ (15 ≤ ({ lkOn with grpTx := 15 } : Lnk).grpTx) ∧
    ([it false 1].find? (fun i => i.typ == 1) = some (it false 1)) ∧
    (lanesOf (sLk lkOn) 0 = 0 ∧ servedBlock (sLk lkOn) 0 = 0 ∧ keySpent lkOn = false ∧ (∀ g ∈ List.range 4, (group lkOn g).toNext = [] ∧ (group lkOn g).toPrev = []) ∧
     (let k : Lnk := { lkOn with keys := { lkOn.keys with ctr := 0xFFFFFFFF } }; keySpent k = true ∧ k.keys.rekey = false ∧ k.fault = none ∧ lnkFixed (sLk k) k = false)) ∧
    ([it false 3, it true 5].find? (fun i => i.typ == 5) = some (it true 5) ∧ [it true 7].find? (fun i => i.vc && i.typ != 5) = some (it true 7) ∧ (it true 7).typ ≠ 1 ∧ (it true 7).typ % 16 ≠ 0 ∧ (it false 3).typ % 16 ≠ 0 ∧ [it false 3].find? (fun i => !i.vc && i.typ != 1) = some (it false 3) ∧ [it false 3, it true 5].find? (fun i => i.typ == 1) = none) ∧ lst (lk 4) = 4 ∧ keySpent (lk 4) = false := by
  decide +kernel

/-- R277: a frame's 10 flits make 512 symbols on each lane; symbol 5 of the frame goes to lane 1. -/
theorem test_frame_dealing : (laneData (List.replicate 10 (fl 0 0 false [])) 1).length = 512 ∧
    (laneData (List.replicate 10 (fl 3 0 false [])) 1)[1]? = (frameSymbols (flitBytes (fl 3 0 false [])))[5]? := by decide +kernel
/-- R278: a codeword corrects up to 15 symbol errors. -/
theorem test_codeword_limit : flitCheck (fl 3 0 false []) ⟨false, [15, 0, 15, 0]⟩ = .corrected ∧ flitCheck (fl 3 0 false []) ⟨false, [16, 0, 0, 0]⟩ = .bad := by decide +kernel
/-! ### Witnesses: entries, enables, registers -/
/-- Station entry 0: core 0, window 8, and the SHA-384 digest of 4096 zero bytes (FIPS 180-4; taken from another implementation of it). -/
def pEnt (on : Word) : Part :=
  { pOpen with regs := [(0x10, 1), (0x8000, on), (0x8008, 8), (0x8010, 0x3E9AE5C0), (0x8014, 0xB5D3FB3F), (0x8018, 0xFB2854C7), (0x801C, 0xAC2F4336), (0x8020, 0x9445C7AB), (0x8024, 0x51FF9642), (0x8028, 0x4F7C735F), (0x802C, 0x64FC4EEF), (0x8030, 0xF7096858), (0x8034, 0x35566FA1), (0x8038, 0xCFAE1E4A), (0x803C, 0x74D7A82A), (0x8040, 0x2000)] }
def sE (on : Word) (k : Core) : State := { sR with parts := [(0, pEnt on)], cores := [(0, k)] }
def kTrap0 (cause : Nat) : Core :=
  { k0 with firings := [(0, r0)], regs := [(4, 1)], traps := [(0, ⟨.slot 0, cause⟩)] }

theorem pEnt_cores : entCores (getPart (sE 0 Core.reset) 0) 0 = [0] := by
  have h : ((entRanges (getPart (sE 0 Core.reset) 0) 0).flatMap (fun r => (List.range r.2).map (fun i => r.1 + i))) = [0] := by decide +kernel
  unfold entCores
  rw [h, List.mergeSort_singleton]

theorem witness_StationEntries :
    (PartAdmits (sE 0 Core.reset) (.vf p0) p0 0 ∧ bit (mwApply 7 0 0x10001) 0 = true ∧ bit pOpen.grants.ctxs 0 = true ∧ bit Part.reset.grants.ctxs 0 = false) ∧
    (bit (mwApply 7 1 0x10000) 0 = false ∧ servedCtxs k0 0 0 = [0]) ∧
    (∀ cause ∈ [SW, BKPT, ILLEGAL],
      let s := sE 1 (kTrap0 cause)
      Admits s (.vf p0) (.core 0) (coreRefusal s 0) 0 ∧ bit (mwApply 1 0 0x10001) 0 = true ∧ coreOwner s 0 = some 0 ∧ partState s 0 ≠ SEALED ∧
        tfind (kTrap0 cause).traps 0 = some ⟨.slot 0, cause⟩ ∧ bit (coreReg (kTrap0 cause) 0x004) 0 = true ∧ fld (coreReg (kTrap0 cause) 0x008) 9 8 = 0 ∧
        heldRun (kTrap0 cause) 0 (.slot 0) = some r0 ∧ HasNext r0) := by decide +kernel

set_option Elab.async false in
/-- Entry 0 passes its check. -/
theorem witness_StationEntries_check : stnCheck (sE 0 Core.reset) 0 0 = 0 := by
  simp only [stnCheck, pEnt_cores]
  decide +kernel

theorem witness_ClusterEnables :
    (Admits sR (.vf p0) (.cluster 0) (sharedRefusal sR) 0 ∧ bit (0x10001 : Word) 16 = true ∧ (∀ y, y < 4 → y ≠ 0 → bit (0x10001 : Word) (16 + y) = false) ∧ bit (0x10001 : Word) 0 = true ∧
      bit (0x10000 : Word) 0 = false ∧ swEnabled Cluster.reset 0 = false ∧ swCheck Cluster.reset 0 0 = 0 ∧ swEnabled { Cluster.reset with regs := [(0x100, 1)] } 0 = true) ∧
    (let k : Cluster := { Cluster.reset with regs := [(routeOff 0 0 3, 0x80000001)] }; rtValid (route k 0 0 3) = true ∧ bit (route k 0 0 3) 31 = true) ∧
    (Admits sR (.vf p0) (.cluster 0) (ringRefusal sR 0 0 (mwStaysOn 0 0x1F0003)) 0 ∧ bit (mwApply 0x1F 0 0x1F0003) 0 = true ∧ fld (mwApply 0x1F 0 0x1F0003) 4 1 = 1 ∧
      ringCheck sR 0 0 0 (Cluster.reset.setReg 0x1820 3) = 0 ∧ fld (mwApply 0x1F 0 0x1F0001) 4 1 = 0 ∧ fld (clReg { Cluster.reset with regs := [(0x1824, 1)] } 0x1824) 22 0 % 64 ≠ 0) ∧
    (let k : Cluster := { Cluster.reset with regs := [(0x1820, 3)] }
     Admits (sH k) (.vf p0) (.cluster 0) (ringRefusal (sH k) 0 0 (mwStaysOn 3 0x10000)) 0 ∧ bit (mwApply 0x1F 3 0x10000) 0 = false ∧ bit (clReg k 0x1820) 0 = true ∧ ringBusy k 0 = false ∧
       ringBusy (withJob k { jobA stgV vw with core := none }) 0 = true) := by decide +kernel

/-- Partition 0 with a cause that waits to be enabled; its function may or may not send messages. -/
def pIrq (on : Bool) : Part := { pOpen with regs := [(0x10, 1), (0x40, 2)], fn := { FnState.reset with cfg := if on then [(4, 4), (0xB0, 0x80000000)] else [], msix := [(12, 0)] } }

theorem witness_PartitionRegisters :
    PartAdmits sR (.vf p0) p0 0 ∧ 0 ∈ ownedCores sR 0 ∧ 32 ∉ ownedCores sR 0 ∧
    (bit (mwApply 0x1F 0 0x1F000D) 0 = true ∧ fld (mwApply 0x1F 0 0x1F000D) 4 1 = 6 ∧ fld (mwApply 0x1F 0 0x1F0001) 4 1 < 6 ∧ bit (partReg pOpen 0x88) 0 = false) ∧
    (∀ on ∈ [true, false], mwApply 0xFFF (partReg (pIrq on) 0x44) 0x20002 = setBit (partReg (pIrq on) 0x44) 1 true ∧ bit (partReg (pIrq on) 0x44) 1 = false ∧ bit (partReg (pIrq on) 0x40) 1 = true ∧
      irqVec (partReg (pIrq on)) 0x48 1 < 248 ∧ msixClear (pIrq on).fn (irqVec (partReg (pIrq on)) 0x48 1) = on ∧ partMute (pIrq on) = false) ∧
    (∀ b, b < 12 → bit (mwApply 0xFFF (partReg pOpen 0x44) 0x20002) b = true → bit (partReg pOpen 0x40) b = false) ∧
    (∀ on ∈ [true, false], let h : Hub := { hR with regs := [(4, 1), (0x10, 8)], pf := { (pIrq on).fn with cfg := [(4, 4), (0xB0, if on then 0x80000000 else 0), (0x148, 1), (0x150, 8)] } }
      let s : State := { sR with hub := h }
      HubAdmits s .pf ∧ mwApply 0xFF (hubReg h 0x14) 0x80008 = setBit (hubReg h 0x14) 3 true ∧ bit (hubReg h 0x14) 3 = false ∧ bit (hubReg h 0x10) 3 = true ∧ irqVec (hubReg h) 0x18 3 < 64 ∧
        msixClear h.pf (irqVec (hubReg h) 0x18 3) = on) ∧
    (ringRefusal sR 0 0 false 0 = none ∧ pmActive sR = true) := by decide +kernel

theorem witness_PartitionRegisters_ring :
    (∀ ow ∈ [0, 1], let q : Part := { pOpen with regs := [(0x10, 1), (0x88, 13), (0x90, w32 (ow * 65536))] }
      bit (partReg q 0x88) 0 = true ∧ bit (mwApply 0x1F (partReg q 0x88) 0x10000) 0 = false ∧ hwrOwner q = ow) := by decide
theorem witness_PartitionRegisters_page : BAR2 ≤ (0x2000040#26).toNat / 4 * 4 := by decide

theorem witness_FirewallRefusals :
    fnLive State.reset (.vf p0) = false ∧ (fnLive sR (.vf p0) = true ∧ ideHeld pOpen = false ∧ p0 ≠ (⟨1, by decide⟩ : PartIx)) ∧ ideHeld { pOpen with regs := [(0x10, 0x11)] } = true := by decide

/-- Partition 0 with a LIVE slot 0 of epoch 0 and a page; or with slot 0 RETIRING and slot 1 LIVE of epoch 1. -/
def pSweep : Part := { pMap with regs := [(0x10, 1), (0x164, 0x100000 + 2 + 4 + 0x1000)] }

theorem witness_HostKeys :
    (PartAdmits sR (.vf p0) p0 0 ∧ bit (mwApply 0xFF7 0 0x10001) 0 = true ∧ bit (mwApply 0xFF7 0 0x10001) 1 = false ∧ slotState sR 0 0 = 0 ∧ slotState sR 0 1 = 0 ∧ bit (partReg pOpen 0x10) 7 = false) ∧
    (slotState (sG Mc.reset) 0 0 = 1 ∧ slotEpoch (sG Mc.reset) 0 0 = 0 ∧ fld (mwApply 0xFF7 0 0x50005) 2 2 = 1 ∧ fld (mwApply 0xFF7 0 0x50005) 11 4 = 0) ∧
    (bit (mwApply 0xFF7 0 0x20002) 1 = true ∧ bit (mwApply 0xFF7 0 0x20002) 0 = false ∧ slotState (sG Mc.reset) 0 1 ≠ 2 ∧ 0 < htkCount (sG Mc.reset) 0 0 ∧ bit (partReg pMap 0x164) 20 = false) ∧
    (let s : State := { sR with parts := [(0, pSweep)] }
     bit (partReg pSweep 0x164) 20 = true ∧ hostOpen s 0 = true ∧ slotState s 0 0 = 2 ∧ slotState s 0 1 = 1 ∧ pSweep.pt3.find? (fun x => ptValid x.2 && ptEpoch x.2 == slotEpoch s 0 0) = some (0, 1) ∧
       tfind pSweep.reads 2 = none ∧ runPieces s 0 [(0, 4096)] ≠ [] ∧ tfind ({ pSweep with reads := [(2, [4])] } : Part).reads 2 = some [4] ∧
       tfind ({ pSweep with reads := [(2, [])] } : Part).reads 2 = some []) := by
  decide +kernel
/-! ### Witnesses: registers from the host, sheets, traces -/
theorem witness_IndirectPorts :
    (∀ i ∈ [IndPort.pf, .part p0, .door cl0], Admits sR .pf (indNode i) (indCheck sR i) 0xF ∧ indBusy sR i = false ∧ fld (indAddrOf sR i) 31 24 < 160) ∧ pmActive sR = true ∧
    (let s : State := { sR with parts := [(0, { pFly with ind := { pFly.ind with flight := some ⟨.vf p0, true, 5, 1, some (.val 7)⟩, held := [(.vf p0, 0xF)] } })] }
     Admits s (.vf p0) (indNode (.part p0)) (indCheck s (.part p0)) 0 ∧ indBusy s (.part p0) = true ∧ (indState s (.part p0)).flight = some ⟨.vf p0, true, 5, 1, some (.val 7)⟩ ∧ (indState s (.part p0)).held = [(.vf p0, 0xF)] ∧
       fld (indAddrOf s (.part p0)) 31 24 < 160 ∧ pmActive s = true ∧ (match exec (.indirectResponse (.part p0)) s with
         | .next t => (indState t (.part p0)).held.isEmpty && indBusy t (.part p0) && t.outbox == [.readData (.vf p0) 7]
         | _ => false) = true) ∧
    (∀ off ∈ [0xF18, 0xF1C, 0x1A00, 0x1A5C], locRefusal sR 0 0xF (some 1) (.cl off) = none) ∧ (∀ off ∈ [0x60, 0x7C, 0xC8, 0xD0, 0xDC], locRefusal sR 0 0xF (some 1) (.core 0 off) = none) ∧
    locRefusal sR 0 0xF (some 1) (.cl 0x1900) = some 4 ∧ locRefusal sR 0 0xF (some 1) (.core 0 4) = some 4 ∧
    160 ≤ fld (0xA0000000 : Word) 31 24 := by decide

theorem witness_RegisterAccess :
    (∀ o ∈ [0x48, 0x40, 0x184, 0x1A0, 0x20C, 0x10, 0x90, 0x28, 0x2040, 0x144], fnLoc (.vf p0) o = .part 0 o) ∧ PartAdmits sR (.vf p0) p0 0 ∧ fnLoc .pf 0x210048 = .part 0 0x48 ∧ PartAdmits sR .pf p0 0xF ∧
    (fnLive sR (.vf 1) = true ∧ pidDown sR 1 = true ∧ fnLoc (.vf 1) 0x80000 = .none_) ∧ (fnLive sR (.vf p0) = true ∧ ideHeld { pOpen with regs := [(0x10, 0x11)] } = true) ∧ (0xF#4 = 0xF#4 ∧ (3 : BitVec 4) ≠ 0xF#4) ∧
    (∀ sl ∈ [0, 8], let s : State := { sR with parts := [(0, { pOpen with regs := [(0x10, w32 (2 + sl))] })] }
      ready s = true ∧ partState s 0 = SEALED ∧ bit (partReg (getPart s 0) 0x10) 3 = decide (sl = 8)) := by decide

theorem witness_ContactSheets :
    (HubAdmits sR .pf ∧ bit (0x10001 : Word) 16 = true ∧ bit (0x10001 : Word) 0 = true ∧ pmActive sR = true) ∧ (bit (0x10000 : Word) 16 = true ∧ bit (0 : Word) 16 = false) ∧
    (pmActive { sR with hub := { hR with regs := [(4, 1), (0x1004, 2)], markers := [.mc m0] } } = false ∧ Island.mc m0 ≠ .hub ∧ Island.dd 0 ∈ ({ hR with markers := [.dd 0] } : Hub).markers) ∧
    (Island.hub ∉ sR.hub.markers ∧ Island.hub ∉ sR.hub.acks ∧ Island.hub ∈ ({ hR with markers := [.hub] } : Hub).markers ∧ ({ hR with acks := [.hub] } : Hub).acks = [.hub]) := by decide

/-- Partition 0 traces STALL records of cluster 0. -/
def pTrace : Part := { pOpen with regs := [(0x10, 1), (0x2000, 0x101), (0x2004, 1), (0x2020, 1)] }

theorem witness_Tracing :
    (PartAdmits sR (.vf p0) p0 0 ∧ bit (mwApply 0x7FF 0 0x10001) 0 = true ∧ bit (mwApply 0x7FF 0 0x10001) 1 = false ∧ trcCheck sR 0 1 = 0 ∧
      trcCheck { sR with parts := [(0, { pOpen with regs := [(0x10, 1), (0x90, 0x10000)] })] } 0 1 = 3 ∧ trcCheck { sR with parts := [(0, { pOpen with regs := [(0x10, 2)] })] } 0 1 = 0x0A) ∧
    (let s : State := { sR with parts := [(0, pTrace)] }
     coreOwner s 0 = some 0 ∧ coreOwner s 32 = none ∧ traceOn s 0 0 7 = true ∧ traceOn sR 0 0 7 = false ∧ (getCl s 0).trace.length < 16 ∧ (getCl s 0).dropped = 0) ∧
    (16 ≤ (List.replicate 16 TraceRec.blank).length ∧ sR.pending = [] ∧ ∀ e ∈ sR.clusters, ∀ r ∈ e.2.trace, traceMay sR r = false) ∧
    (sR.hub.pwr.booting = false ∧ pmActive { sR with hub := { hR with regs := [(4, 1), (0x1004, 2)] } } = false) := by decide +kernel
/-! ### Witnesses: mailboxes -/
/-- The physical function's command stands at the front, with its arguments; the registers of partition 0 besides. -/
def sPf (code : Nat) (args : List Nat) (p : Part) : State :=
  { sR with parts := [(0, p)],
            hub := { hR with regs := (4, 1) :: (0x100000, w32 code) :: (args.zip (List.range args.length)).map (fun x => (0x100010 + 4 * x.2, w32 x.1)),
                             rot := { hR.rot with queue := [.mbx .pf] } } }
/-- The same for partition 0's own mailbox. -/
def sTn (code : Nat) (args : List Nat) (p : Part) : State :=
  { sR with parts := [(0, { p with regs := p.regs ++ (0x1000, w32 code) :: (args.zip (List.range args.length)).map (fun x => (0x1010 + 4 * x.2, w32 x.1)) })],
            hub := { hR with rot := { hR.rot with queue := [.mbx (.part p0)] } } }

theorem witness_PartitionCommands :
    (let s := sPf 1 [1] pOpen; atFront s .pf 1 = true ∧ mbxArg s .pf 0 = 1 ∧ partState s 1 = ABSENT) ∧ (let s := sPf 1 [0] pOpen; atFront s .pf 1 = true ∧ partState s 0 ≠ ABSENT) ∧
    (let s := sPf 1 [8] pOpen; atFront s .pf 1 = true ∧ 8 ≤ mbxArg s .pf 0) ∧
    (let s := sPf 2 [0, 0, 1, 1] pOpen; atFront s .pf 2 = true ∧ partState s 0 = OPEN ∧ grantBad (grantArg s .pf) = false ∧ grantTaken s 0 (grantArg s .pf) = false ∧ (grantArg s .pf).kind = 0 ∧ bit (grantArg s .pf).mask 0 = true) ∧
    (let s : State := { sPf 2 [0, 3, 0, 2] pOpen with parts := [(0, pOpen), (1, { pOpen with grants := { Grants.none_ with ports := 2 } })] }; grantTaken s 0 (grantArg s .pf) = true ∧ atFront s .pf 2 = true) ∧
    (let s := sPf 3 [0, 3, 0, 1] pOpen; atFront s .pf 3 = true ∧ grantBad (grantArg s .pf) = false ∧ grantBusy s 0 (grantArg s .pf) = false) ∧
    (let s : State := { sPf 3 [0, 3, 0, 1] pOpen with lnks := [(0, lkOn)] }; grantBusy s 0 (grantArg s .pf) = true) ∧
    (∀ kind ∈ [0, 1, 2], let s := sPf 4 [0, kind, if kind = 0 then 0 else 7] pOpen; atFront s .pf 4 = true ∧ mbxArg s .pf 1 = kind ∧ mbxArg s .pf 2 = (if kind = 0 then 0 else 7)) ∧
    (let s := sPf 5 [0] pOpen; atFront s .pf 5 = true ∧ partState s 0 = OPEN ∧ 0 ∈ ownedCores s 0 ∧ bit (tget pOpen.grants.staging 0 (0 : BitVec 128)) 127 = true) ∧
    (let s : State := { sPf 4 [0] pOpen with hub := { (sPf 4 [0] pOpen).hub with rot := { hR.rot with queue := [.mbx .pf], result := some 0 } } }
     s.hub.rot.queue.head? = some (.mbx .pf) ∧ s.hub.rot.queue.tail.head? = none ∧ s.hub.rot.result = some 0 ∧ ¬(fld (mbxReg s .pf 0) 7 0 = 5)) ∧
    (∀ c ∈ [1, 2, 3, 4, 5], atFront (sTn c [0] pOpen) (.part p0) c = true) ∧ (∀ c ∈ [0x20, 0x21, 0x22, 0x23, 0x24], atFront (sPf c [0] pOpen) .pf c = true) ∧ grantBad (grantArg (sPf 2 [0, 9, 0, 1] pOpen) .pf) = true ∧
    (let s : State := { sPf 9 [0] pOpen with hub := { (sPf 9 [0] pOpen).hub with rot := { hR.rot with queue := [.mbx .pf], result := some 0, writing := hR.rot.slotA } } }
     fld (mbxReg s .pf 0) 7 0 = 9 ∧ s.hub.rot.writing.isSome = true) ∧
    (let s := sPf 5 [0] { pOpen with pass := some true }; fld (mbxReg s .pf 0) 7 0 = 5 ∧ (getPart s 0).pass.isSome = true) := by decide +kernel

/-- A partition with a quota of pages. -/
def pQ : Part := { pMap with regs := [(0x10, 1), (0x14, 10), (0x1C, 10), (0x164, 1)] }

theorem witness_TenantCommands :
    (let s := sTn 0x20 [2, 5, 2, 0] pQ
     atFront s (.part p0) 0x20 = true ∧ mbxArg s (.part p0) 0 = 2 ∧ mbxArg s (.part p0) 1 = 5 ∧ mbxArg s (.part p0) 2 = 2 ∧ mbxArg s (.part p0) 3 < 16 ∧
       (∀ e ∈ (getPart s 0).pt2, 5 ≤ e.1 → e.1 < 7 → ptValid e.2 = false) ∧ (partReg (getPart s 0) 0x18).toNat + 2 ≤ (partReg (getPart s 0) 0x14).toNat ∧ 2 ≤ freeCount (getMc s 0)) ∧
    (let s := sTn 0x20 [2, 5, 2, 0] pMap; (partReg (getPart s 0) 0x14).toNat < (partReg (getPart s 0) 0x18).toNat + 2) ∧
    (let s := sTn 0x20 [3, 5, 2, 0, 0, 0, 0, 0] pQ
     atFront s (.part p0) 0x20 = true ∧ (∀ e ∈ (getPart s 0).pt3, 5 ≤ e.1 → e.1 < 7 → ptValid e.2 = false) ∧ (partReg (getPart s 0) 0x20).toNat + 2 ≤ (partReg (getPart s 0) 0x1C).toNat ∧
       mbxArg s (.part p0) 3 % 2 ^ 21 = 0 ∧ mbxArg s (.part p0) 5 % 2 ^ 17 = 0 ∧ epochLive s 0 (mbxArg s (.part p0) 7 % 256) = true) ∧
    (∀ code ∈ [0x21, 0x22], ∀ sp ∈ [2, 3], let s := sTn code [sp, 0, 1, 1] pQ
      atFront s (.part p0) code = true ∧ mbxArg s (.part p0) 0 = sp ∧ mbxArg s (.part p0) 1 + mbxArg s (.part p0) 2 ≤ pageMax sp ∧ (∀ m, m < 16 → stnOn (getMc s m) = false) ∧
        pagesBusy s (.part p0) = false ∧ s.hub.hccDirty = [] ∧ validPages s (.part p0) = [(0, 1)]) ∧
    (let s : State := { sTn 0x21 [2, 0, 1, 1] pQ with clusters := [(0, withJob Cluster.reset jobP)] }; pagesBusy s (.part p0) = true) ∧
    (let s := sTn 0x24 [0] { pOpen with log := [7], logCount := 1 }
     atFront s (.part p0) 0x24 = true ∧ (getPart s 0).logCount - (getPart s 0).log.length ≤ mbxArg s (.part p0) 0 ∧ mbxArg s (.part p0) 0 < (getPart s 0).logCount ∧ (getPart s 0).log[0]? = some 7) ∧
    (let s := sTn 0x24 [1] { pOpen with log := [7], logCount := 1 }; atFront s (.part p0) 0x24 = true ∧ (getPart s 0).logCount ≤ mbxArg s (.part p0) 0) := by decide +kernel

theorem witness_KeyModeCommand :
    (∀ st ∈ [1, 2], let s := sTn 0x23 [3, 1, 2, 3, 4] { pOpen with regs := [(0x10, w32 st)] }
      atFront s (.part p0) 0x23 = true ∧ mbxArg s (.part p0) 0 ≤ 3 ∧ partState s 0 = st ∧ (∀ m, m < 2 → slotState s 0 m = 0) ∧ (∀ l, l < 16 → lnkOn (getLnk s l) = false)) ∧
    (let s : State := { sTn 0x23 [3] pOpen with lnks := [(0, lkOn)] }; atFront s (.part p0) 0x23 = true ∧ lnkOn (getLnk s 0) = true ∧ lpid (getLnk s 0) = 0) := by decide +kernel

theorem witness_SafelightAndFirmware :
    (∀ code ∈ [6, 7], ∀ st ∈ [1, 2], let s := sPf code [0] { pOpen with regs := [(0x10, w32 st)] }; atFront s .pf code = true ∧ partState s 0 = st ∧ mbxArg s .pf 0 = 0) ∧
    (let s := sPf 6 [1] pOpen; atFront s .pf 6 = true ∧ partState s 1 = ABSENT) ∧ atFront (sPf 8 [0] pOpen) .pf 8 = true ∧
    (∀ n ∈ [4096, 0x1000001], atFront (sPf 9 [0, 0, n] pOpen) .pf 9 = true ∧ mbxArg (sPf 9 [0, 0, n] pOpen) .pf 2 = n) := by decide +kernel
/-! ### Witnesses: the host's requests -/
/-- The link is up. -/
def sUp : State := { sR with hub := { hR with pwr := { hR.pwr with link := true, perst := false } } }

theorem witness_ConfigurationSpace :
    (sUp.hub.pwr.link = true ∧ ready sUp = true ∧ cfgLive sUp .pf = true ∧ (getFn sUp .pf).flr = false ∧ cfgLive sUp (.vf p0) = true ∧ cfgLive State.reset (.vf p0) = false) ∧
    (State.reset.hub.pwr.link = false ∧ ready { sUp with hub := { sUp.hub with regs := [] } } = false ∧ (0x2#12).toNat / 4 * 4 = 0) ∧ (getFn { sUp with hub := { sUp.hub with pf := { hR.pf with flr := true } } } .pf).flr = true ∧
    cfgMask .pf 0 = 0 ∧ cfgMask .pf 4 ≠ 0 ∧ cfgMask .pf AER ≠ 0 ∧ cfgMask (.vf p0) 0x44 ≠ 0 ∧ cfgMask .pf 0x78 ≠ 0 ∧ cfgUnsupported 0x78 0x40#32 = false ∧ cfgUnsupported 0x78 0x60#32 = true ∧
    fld (cfgWord sUp .pf 0x78) 7 5 ≤ 2 ∧ fld (cfgWord sUp .pf 0x44) 1 0 ∈ [0, 3] ∧ bit (cfgWord { sUp with hub := { sUp.hub with pf := { hR.pf with cfg := [(0x98, 0x10#32)] } } } .pf 0x98) 4 = true ∧
    bit (cfgWord sUp .pf 0x98) 4 = false ∧ (sUp.hub.pwr.good = true ∧ sUp.hub.pwr.perst = false) ∧ State.reset.hub.pwr.perst = true := by decide

/-- A roller job that awaits the completion of tag 4. -/
def sReq : State :=
  { sUp with clusters := [(0, withJob Cluster.reset { jobA lpdV vw with tags := [4] })], hub := { sUp.hub with reqs := [⟨4, 0, 0, 512, 0, true, .roller 0 0, true⟩] } }

theorem witness_HostCompletions :
    sUp.hub.reqs.find? (fun r => r.tag == 4 && r.sent) = none ∧ sReq.hub.reqs.find? (fun r => r.tag == 4 && r.sent) = some ⟨4, 0, 0, 512, 0, true, .roller 0 0, true⟩ ∧
    (getChan (getCl sReq 0) 0).job = some { jobA lpdV vw with tags := [4] } ∧ bit (clReg (getCl sReq 0) 0x1800) 31 = false := by decide +kernel

/-- A header of a container in the host tier whose completion ends what the job waits for; requests of a print, a proof and a sweep. -/
theorem witness_HostCompletions_more :
    (let j : Job := { jobH with a := ⟨setFld (mkD 0 3 0 32 32 2 64) 67 67 1, 0, 0⟩, pages := [], tags := [4] }
     j.body = false ∧ j.tags.erase 4 = [] ∧ dSpace j.a.d = 3 ∧ jobP.body = true) ∧
    (∀ e ∈ [0, 1, 2], let s : State := { sR with parts := [(0, { pOpen with reads := [(e, [4, 5])] })], hub := { hR with reqs := [⟨4, 0, 0, 512, 0, true, .engine 0 e, true⟩] } }
      s.hub.reqs.find? (fun r => r.tag == 4 && r.sent) = some ⟨4, 0, 0, 512, 0, true, .engine 0 e, true⟩ ∧ tfind (getPart s 0).reads e = some [4, 5]) := by decide +kernel

theorem witness_DoeAndSeal :
    (4096 < (List.replicate 4097 (0 : Word)).length ∧ (⟨1, [0]⟩ : DoeObject).payload.length ≤ 4096 ∧ doeLive sR .pf = true ∧ doeLive sR (.vf p0) = true ∧ (⟨1, [0]⟩ : DoeObject).typ.toNat ≤ 2 ∧
      2 < (⟨3, []⟩ : DoeObject).typ.toNat ∧ doeLive State.reset .pf = false) ∧
    (sR.hub.rot.queue = [] ∧ fld (3 : BitVec 8) 7 2 = 0 ∧ partState sR 0 = OPEN ∧ bit (1 : BitVec 8) 0 = true ∧ pOpen.fn.secure = false ∧ bit (partReg pOpen 0x10) 3 = false ∧
      ¬ (bit (0 : BitVec 8) 1 = true ∧ fld (partReg pOpen 0x10) 7 6 ≠ 0 ∨ bit (0 : BitVec 8) 0 = true ∧ pOpen.fn.secure = false)) ∧
    partState { sR with parts := [(0, { pOpen with regs := [(0x10, 2)] })] } 0 = SEALED := by decide +kernel

/-- A SEAL behind a command of the physical function that has taken effect. -/
theorem witness_DoeAndSeal_queue :
    let s : State := { sPf 4 [0] { pOpen with regs := [(0x10, 2)] } with hub := { (sPf 4 [0] pOpen).hub with rot := { hR.rot with queue := [.mbx .pf, .seal p0 0 0], result := some 0 } } }
    s.hub.rot.queue ≠ [] ∧ s.hub.rot.result = some 0 ∧ fld (mbxReg s .pf 0x0) 7 0 = 4 ∧ partState s 0 = SEALED := by decide +kernel

/-- Whatever the measurement is, an expected value may be equal to it or not. -/
theorem witness_DoeAndSeal_expect : meas10 sR 0 = meas10 sR 0 ∧ meas10 sR 0 ≠ meas10 sR 0 + 1 := by
  refine ⟨rfl, fun h => ?_⟩
  generalize meas10 sR 0 = m at h
  bv_omega

theorem witness_IdeAndSideband :
    ready sR = true ∧ cfgLive sR .pf = true ∧ ({ FnState.reset with secure := true } : FnState).secure = true ∧ pOpen.fn.secure = false ∧ ({ FnState.reset with ide := 1 } : FnState).ide ≠ 0 ∧
    vfLive sR 0 = true ∧ sR.hub.pwr.good = true ∧ State.reset.hub.pwr.good = true ∧ ready State.reset = false ∧ bit (0x12 : Word) 4 = true ∧ fld (0x12 : Word) 1 0 = SEALED ∧
    ({ hR.pwr with good := false } : Power).good = false := by decide

/-- From PCI Express: a write of all ones to a BAR answers its size, 64 MiB and 1 MiB; an unlisted word stays 0; the FLR time of a VF is 115 units of 2^20 ns. -/
theorem test_bar_size :
    cfgPut .pf 0x10 4#32 0xFFFFFFFF#32 = 0xFC000004#32 ∧ cfgPut .pf 0x164 4#32 0xFFFFFFFF#32 = 0xFFF00004#32 ∧ cfgPut .pf 0x3C 0#32 0xFFFFFFFF#32 = 0#32 ∧ rtrTime 120000000 = 115 + 4 * 512 := by decide

/-- The sideband answers at 0x52; the first sensor is found by its own ID, whatever that is; a version may have been negotiated. -/
theorem witness_IdeAndSideband_measurements :
    ready { sR with hub := { hR with sbSpdm := 0x13 } } = true ∧ ({ hR with sbSpdm := 0x13 } : Hub).sbSpdm = 0x13 ∧ (⟨0x52, 5, true, [0x13, 0xE0, 0, 1]⟩ : Mctp).bytes = [BitVec.ofNat 8 0x13, 0xE0#8, 0#8, 1#8] := by decide
theorem witness_IdeAndSideband_message :
    sbAddr sR = 0x52 ∧ (⟨0x52, 0, true, [0x80, 2]⟩ : Mctp).addr.toNat = sbAddr sR ∧ ({ FnState.reset with spdm := 0x13 } : FnState).spdm = 0x13 ∧ doeLive sR (.vf p0) = true := by decide
theorem witness_IdeAndSideband_sensor : (List.range 8).find? (fun j => Config.sensorId j == Config.sensorId 0) = some 0 := by
  rw [show List.range 8 = 0 :: (List.range 7).map (· + 1) from by decide, List.find?_cons_of_pos]
  simp

/-- From DSP0274: VERSION lists 1.2 and 1.3; PSK_EXCHANGE is an unsupported request; CAPABILITIES carries CTExponent 20. -/
theorem test_spdm :
    (spdmAnswer ⟨[], []⟩ 0 [0x10, 0x84, 0, 0]).head = [0x10, 4, 0, 0, 0, 2, 0, 0x12, 0, 0x13] ∧ (spdmAnswer ⟨[], []⟩ 0x12 [0x12, 0xE6, 0, 0]).head = [0x12, 0x7F, 7, 0xE6] ∧
    ((spdmAnswer ⟨[], []⟩ 0 [0x13, 0xE1, 0, 0]).head.getD 5 0, (spdmAnswer ⟨[], []⟩ 0 [0x13, 0xE1, 0, 0]).ver) = (20, 0x13) ∧ discovery 1 = 0x02010001#32 := by decide
/-! ### Witnesses: resets, start-up, power -/
def facts0 : BootFacts := ⟨true, true, [], [], [], 0, 0, 0, 0, 0, [], 500⟩

theorem witness_FixerPass :
    pOpen.pass = none ∧ (∀ td ∈ [true, false], ({ pMap with pass := some td } : Part).pass = some td) ∧ (∃ e ∈ pMap.pt2, ptValid e.2 = true) ∧ vfLive State.reset 0 = false ∧ vfLive sR 0 = true ∧
    ringPid (getCl sR 0) 0 = 0 ∧ partState sR 0 = OPEN ∧ partState sR 1 = ABSENT ∧ (getPart sR 1).pass = none := by decide

/-- State.reset, where POWER_GOOD stands and PERST_N is asserted, starts up with `facts0`; each step can fail. -/
theorem witness_StartUp :
    (State.reset.hub.pwr.perst = true ∧ State.reset.hub.pwr.good = true ∧ sUp.hub.pwr.perst = false ∧ ({ Power.reset with good := false } : Power).good = false) ∧
    (facts0.counterOk = true ∧ facts0.pufOk = true ∧ (∀ d, d < 4 → 40 ≤ (working (badOf facts0) d).length) ∧ dramFails facts0 = false) ∧
    (State.reset.hub.rot.slotA.any (fun i => fld i.header 31 0 == 0x44465756 && i.sigOk && fld i.header 63 48 == 0 && fld i.header 511 96 == 0 && fld i.header 2047 1280 == 0 &&
        decide (State.reset.hub.rot.minsvn.toNat ≤ fld i.header 47 32) && decide (fld i.header 95 64 ≤ 2 ^ 24 - 256)) = true ∧
      State.reset.hub.rot.keyOk = true ∧ State.reset.hub.rot.helperOk = true ∧ ({ Rot.reset with helperOk := false } : Rot).helperOk = false ∧ State.reset.hub.rot.slotB = none ∧ State.reset.hub.rot.trial = false ∧ State.reset.hub.rot.primary = false) ∧
    (dramFails { facts0 with dead := 1 } = true ∧ (working [0, 1, 2] 0).length < 40) ∧ ({ Rot.reset with slotA := none } : Rot).slotA = none ∧
    (∀ k : Fin 7, ({ Power.reset with rails := k.val } : Power).input = true ∧ ({ Power.reset with rails := k.val } : Power).rails = k.val) ∧ ({ Power.reset with facts := some facts0, perst := false } : Power).facts = some facts0 := by
  decide +kernel

theorem witness_StartUp_last : State.reset.pending = [] ∧ (∀ e ∈ State.reset.clusters, ∀ r ∈ e.2.trace, traceMay State.reset r = false) ∧
    (bit (0x10001 : Word) 0 = true ∧ bit (0x10001 : Word) 16 = true) ∧ ({ facts0 with badLanes := 0x10001 } : BootFacts).badLanes = 0x10001 := by decide

theorem witness_PowerLoss :
    Power.reset.input = true ∧ Power.reset.rails = 7 ∧ Power.reset.trip = false ∧ ({ Power.reset with input := false, trip := true } : Power).trip = true ∧
    (∃ v ∈ [(110 : BitVec 8), 20, 20, 20, 20], (110 : Int) ≤ v.toInt) ∧ ({ Power.reset with rails := 0 } : Power).rails = 0 := by decide

/-- The hub with power-management registers. -/
def sPm (rg : Regs) (p : Power) : State := { sR with hub := { hR with regs := (4, 1) :: rg, pwr := p } }

theorem witness_PowerManagement :
    (let s := sPm [(0x1008, 2000), (0x1028, 1600), (0x100C, 1200)] { Power.reset with overs := 99 }
     s.hub.pwr.rails ≠ 0 ∧ fld (hubReg s.hub 0x1028) 10 0 = 1600 ∧ 10 * fld (hubReg s.hub 0x1008) 11 0 < 20001 ∧ 100 * 19600 ≤ 980 * fld (hubReg s.hub 0x1008) 11 0 ∧ 980 * fld (hubReg s.hub 0x1008) 11 0 < 100 * 19601 ∧ HubAdmits s .pf ∧
       99 ≤ s.hub.pwr.overs ∧ fld (999 : Word) 11 0 < 1000 ∧ 2600 < fld (2601 : Word) 11 0 ∧ fld (1199 : Word) 11 0 < fld (hubReg s.hub 0x100C) 11 0 ∧ fld (hubReg s.hub 0x100C) 11 0 ≤ fld (1200 : Word) 11 0) ∧
    (let s : State := { sR with parts := [(0, { pOpen with grants := Grants.none_ })] }
     standbyBusy s = false ∧ standbyBusy sR = true ∧ bit (hubReg s.hub 0x1000) 0 = false ∧ pmState s = 0 ∧ bit (0x10001 : Word) 0 = true ∧ bit (0x10001 : Word) 16 = true ∧ bit (0x10000 : Word) 0 = false) ∧
    (∀ st ∈ [1, 2, 3], let s := sPm [(0x1000, 1), (0x1004, w32 st)] Power.reset; pmState s = st ∧ bit (hubReg s.hub 0x1000) 0 = true) ∧
    (let rs : List (BitVec 8) := [95, 90, 91, 20, 20]
     (∀ u ∈ rs, u.toInt < 110) ∧ (∃ u ∈ rs, (95 : Int) ≤ u.toInt) ∧ (∀ u ∈ rs, u.toInt + 5 ≤ 100) ∧ (∀ u ∈ rs, u.toInt < 96) ∧ ∃ u ∈ rs, (96 : Int) < u.toInt + 5) := by decide +kernel

/-- Whatever stands beside it, a hub whose PM_STAT reads ACTIVE has running islands: every state of the witnesses above is one. -/
theorem running_of_pmStat (s : State) (h : hubReg s.hub 0x1004 = 0) : pmActive s = true := by simp [pmActive, h, fld]
theorem witness_running : hubReg State.reset.hub 0x1004 = 0 ∧ hubReg sR.hub 0x1004 = 0 := by decide
theorem witness_StoppedIslands :
    let s : State := { sR with hub := { hR with regs := [(0x1004, 2)] } }
    pmActive s = false ∧ woferOf (.add c0 s0 fA) ≠ none := by decide
/-! ### Witnesses: faults, molts, spares -/
def mC (failed : BitVec 16) (w : Word) (used : List Nat) : Mc := { Mc.reset with failed := failed, regs := [(0x200, w)], used := used }
def sM (k : Mc) (us : List FaultUnit) : State := { sR with mcs := [(0, k)], hub := { hR with molts := us } }
def sMolt (us : List FaultUnit) : State := { sR with hub := { hR with molts := us } }
def row0 : SramRow := .data c0 ⟨3, by decide⟩
def sub0 : FaultUnit := .sub m0 ⟨2, by decide⟩
def lane0 (tx : Bool) : FaultUnit := .lane l0 tx ⟨1, by decide⟩

theorem witness_CoreAndRowFaults :
    0 < coreSpares sR.hub 0 ∧ coreSpares ({ hR with rot := { Rot.reset with badCores := [32, 33] } } : Hub) 0 = 0 ∧ coreOwner sR 0 = some 0 ∧ (0 : Nat) < rowSpares sR.hub row0 ∧
    ¬ 0 < rowSpares { hR with rowSp := [(rowArray Rot.reset row0, 2)] } row0 ∧ rowOwner sR row0 = some 0 := by decide +kernel

theorem witness_SubchannelsAndUncovered :
    (let k := mC 0 0 []; bit (mcReg k 0x200) 2 = false ∧ bit k.failed 2 = false ∧ 1024 ≤ freeCount k) ∧ ¬ (bit (mC 4 0 []).failed 2 = false) ∧
    (let k := mC 4 0x00120000 []; bit (mcReg k 0x200) 20 = true ∧ fld (mcReg k 0x200) 19 16 = 2 ∧ bit k.failed 2 = true ∧ 1024 ≤ freeCount k) ∧ bit (mcReg (mC 0 0 []) 0x200) 20 = false ∧
    bit (5 : BitVec 8) 0 = true ∧ bit (5 : BitVec 8) 1 = false := by decide +kernel

/-- A package with fewer than 1,024 free frames, for the retirement and the molt that wait. -/
theorem witness_fullPackage : freeCount (mC 0 0 (List.replicate 15356 0)) < 1024 := by
  simp only [freeCount, mC, List.length_replicate]
  have h1 : FRAMES = 16379 := rfl
  have h2 : Mc.reset.reloc.length = 0 := rfl
  omega

set_option Elab.async false in
theorem witness_MoltsAndSpares :
    ((getCore sR 0).dead = false ∧ (getCore (atCore { k0 with dead := true }) 0).dead = true) ∧
    (∀ u ∈ [FaultUnit.row row0, .core c0, .cluster cl0, lane0 true, lane0 false, sub0], u ∈ (sMolt [u]).hub.molts ∧ u ∉ sR.hub.molts) ∧
    (atBoundary sR 0 = true ∧ rowCluster row0 = 0 ∧ atBoundary { sR with clusters := [(0, { Cluster.reset with regs := [(0x100, 1)] })] } 0 = false) ∧
    (0 < coreSpares sR.hub 0 ∧ 0 < rowSpares sR.hub row0 ∧ spareOf ({ Rot.reset with phys := (List.range 40).map (fun i => (i, i)) } : Rot) 0 = [40, 41]) ∧
    (spareCore Rot.reset 0 33 = true ∧ physCl Rot.reset 1 = 0 ∧ physCl Rot.reset 40 = 64 ∧ arraySpare sR.hub (siteNo ⟨0, 3, some 33, 2⟩) = 2 ∧ goodCores [5] 0 = (List.range 34).erase 5 ∧
      coreSpares ({ hR with rot := { Rot.reset with badCores := [32, 33] } } : Hub) 0 = 0) ∧
    (lst (getLnk (sLk lkOn) 0) = 6 ∧ txSpared lkOn = false ∧ bit lkOn.spareBad 1 = false ∧ bit lkOn.spareBad 0 = false ∧ rxSpared lkOn = false ∧ lkOn.fault = none ∧ lkOn.keys.rekey = false) ∧
    1024 ≤ freeCount (getMc (sM (mC 0 0 []) [sub0]) 0) ∧ mcInFlight (sM (mC 0 0 []) [sub0]) 0 = false ∧
    mcInFlight { sR with mesh := [{ pid := 0, src := .cluster 0, dst := .mc 0, tid := 0, body := .pageRead 0 0 0 }] } 0 = true ∧
    (bit sR.hub.lossDue 0 = false ∧ bit ({ hR with lossDue := 1 } : Hub).lossDue 0 = true ∧ bit (partReg { pOpen with regs := [(0x114, 0x10002)] } 0x114) 16 = true ∧ bit (partReg pOpen 0x114) 16 = false) := by
  decide +kernel
/-! ### Witnesses: host-class cores, whole-machine rules -/
/-- Host-class core 0 holds one store for its hub cache. -/
def sHcc (d : List HccAccess) : State := { sR with hub := { hR with hccDirty := [(0, d)] } }
def wHcc : Who := { pid := 0, cl := 0, stn := false }
def readsBlank (x : Except RlFail (List Byte)) : Bool := match x with | .ok b => b == [Mem.blank, Mem.blank] | .error _ => false
def readRefused (x : Except RlFail (List Byte)) : Bool := match x with | .ok _ => false | .error f => f.code == E_REFUSED

theorem witness_HostClassCores :
    hccOwner State.reset 0 = none ∧ pmState { sR with hub := { hR with regs := [(4, 1), (0x1004, 2)] } } ≠ 0 ∧ hccOwner sR 0 = some 0 ∧ pmState sR = 0 ∧
    sR.hub.hccDirty.all (fun d => !(d.2.any (dirtyHit sR d.1 wHcc 1 [(64, List.replicate 2 0)]))) = true ∧ readsBlank (tierRead sR wHcc 1 64 2) = true ∧
    sR.hub.hccDirty.all (fun d => !(d.2.any (dirtyHit sR d.1 wHcc 2 [(64, List.replicate 2 0)]))) = true ∧ readRefused (tierRead sR wHcc 2 64 2) = true ∧
    objOf 0x101 = some (.hive ⟨1, by decide⟩ ⟨1, by decide⟩) ∧ tget sR.hub.hccDirty 0 [] = [] ∧
    tget (sHcc [.store 1 cl0 64 [7, 8]]).hub.hccDirty 0 [] = [.store 1 cl0 64 [7, 8]] ∧ writeFail (sHcc [.store 1 cl0 64 [7, 8]]) wHcc 1 [(64, [7, 8])] = none ∧
    (dirtyLines { sR with hub := { sR.hub with hccDirty := tset sR.hub.hccDirty 0 (tget sR.hub.hccDirty 0 [] ++ [.store 1 cl0 64 [7, 8]]) } }).length ≤ cacheLines := by
  decide +kernel

theorem witness_memOk : MemOk State.reset where
  sram := by intro k h; cases h
  staging := by intro k h; cases h
  frames := by intro k h; cases h
  host := by intro k h; cases h
  hostOld := by intro k h; cases h
theorem witness_MemoryStaysCanonical : goes (step State.reset) = true ∧ goes (step { State.reset with pending := [.partialByteWrite .pf 0x8 0 3] }) = true := by decide +kernel
theorem witness_OneCommandPerStep : goes (step { State.reset with pending := [.inputStartThreshold, .inputStartThreshold] }) = true := by decide +kernel
theorem witness_ContainerRoundTrip : ([3, 4] : List Word).length = 1 * 2 ∧ ∀ w ∈ ([3, 4] : List Word), w.toNat < 65536 := by simp
theorem witness_GrantsAndMinsvn : goes (exec (.partCreate .pf) sR) = true := by decide +kernel

/-! ### Well-formedness -/
/-- A flit of fewer bytes, a data object that is too long and a write of all four bytes cannot be sent; the step refuses them. -/
theorem test_illFormed_flit : wellFormed (.flitReceive l0 { fl 3 0 false [] with payload := [] } ⟨true, []⟩) = false ∧ wellFormed (.flitReceive l0 (fl 3 0 false []) ⟨true, []⟩) = true := by decide +kernel
theorem test_illFormed_doe : wellFormed (.doeRequest .pf ⟨0, List.replicate 4097 0⟩) = false ∧ wellFormed (.doeRequest .pf ⟨0, List.replicate 4096 0⟩) = true := by
  simp only [wellFormed, doeWf, List.length_replicate]; decide
theorem test_illFormed_partial : wellFormed (.partialByteWrite .pf 0 0 0xF) = false ∧ wellFormed (.partialByteWrite .pf 0 0 7) = true := by decide
theorem test_refused : goes (exec (.flitReceive l0 { fl 3 0 false [] with payload := [] } ⟨true, []⟩) sR) = false ∧ goes (exec (.partialByteWrite .pf 0 0 0xF) sR) = false := by decide +kernel

/-! ### The spec's worked examples -/
theorem test_idle : goes (step State.reset) = true := by decide
/-- "A masked write" (spec/00_scope.md). -/
theorem test_masked_write : mwApply 0xFFFF 0x24 0x00280008 = 0xC := by decide
/-- "Locating core 3,000" (spec/01_seven_levels.md). -/
theorem test_core_3000 : placeCore 3000 = 0xA9C0 := by decide
/-- "Cancellation across two chunks" (spec/06_matrix_arithmetic.md). -/
theorem test_two_chunks :
    (chunkH 0 (0x6800 :: List.replicate 31 0x3400) (0x6800 :: List.replicate 31 0x3400)).1 = 0x4A800004 ∧
    (chunkH 0x4A800004 (0x6800 :: List.replicate 31 0x2C00) (0xE800 :: List.replicate 31 0x2C00)).1 = 0x4007C000 := by decide +kernel
/-- "Stochastic rounding of one element" (spec/06_matrix_arithmetic.md). -/
theorem test_stochastic :
    (convert 0x3F800C00 1 0xC350).1 = 0x3C01 ∧ (convert 0x3F800C00 1 0x1A2B).1 = 0x3C00 ∧ (convert 0x3F800C00 0 0).1 = 0x3C00 := by decide +kernel
/-- "A small coded container" (spec/08_memory_tiers.md): MODE 1, LEN 14 and the payload. -/
theorem test_container :
    let c := encodeTile false 1 8 [0x3C00, 0, 0x3E00, 0x8000, 0x4000, 0x4100, 0, 0xBC00]
    c.drop 64 = [0x88, 0x4A, 0x6F, 0, 0x61, 0, 0x5F, 0, 0, 8, 0, 0x40, 0, 0] ∧ headLen (c.take 64) = 14 := by decide +kernel
/-! ### Instruction words (the worked words of spec/03_wofer_core_isa.md and spec/04_wofer_tensor_isa.md) -/
def spells (w : BitVec 64) (i : Instr) : Bool := decodeWofer c0 s0 w == some i
theorem test_words_scalar :
    spells 0x101FC00000028140 (.li c0 s0 { g := gT, rd := 24, rs1 := 0, imm := 0xA05, pd := 0, rsv := 0 }) = true ∧
    spells 0x0015007240000000 (.cmpGeu c0 s0 { g := gT, rd := 0, rs1 := 1, rs2 := 25, pd := 1, rsv := 0 }) = true ∧
    spells 0x2000001400000000 (.br c0 s0 { g := gT, r1 := 0, target := 5, imm := 0, rsv := 0 }) = true := by decide +kernel
theorem test_words_token :
    spells 0x60000E0400000000 (.synFaa c0 s0 { g := gT, rd := 1, rs1 := 24, rs2 := 2, pd := 0, cond := 0, timeout := 0, rsv := 0 }) = true ∧
    spells 0x4044000000000000 (.fin c0 s0 { g := { gT with gp := 1 }, rd := 0, rs1 := 0, rs2 := 0, t := false, port := 0, mask := 0, entry := 0, rsv := 0 }) = true ∧
    spells 0x4002004300000000 (.send c0 s0 { g := gT, rd := 0, rs1 := 1, rs2 := 1, t := true, port := 0, mask := 0, entry := 0, rsv := 0 }) = true := by decide +kernel
theorem test_words_tensor :
    spells 0x8082080020000000 (.drain c0 s0 { g := { gT with gp := 2 }, bank := 0, dst := false, dD := 4, ofmt := 0, epi := 0, dE := 0, rp := 4, roD := 0, roE := 0, side := 0, half := false, rsv := 0 }) = true := by decide +kernel
/-- R61: no class 0x3F, no OP 0x01 of class 0x04. -/
theorem test_words_undefined : wordUndefined 0xFC00000000000000 = true ∧ wordUndefined 0x1001000000000000 = true ∧ wordUndefined 0 = false := by decide +kernel
end Sys2Proof.Tests
end

section
/-! Proofs of the family of spec/03: what they share. What a ready run reads, what each kind of act makes of its state, and a write of a scalar
register by a run that goes on anywhere. -/
namespace Sys2Proof

open Machine

/-! ### Two writes of one place -/

theorem tset_tset {α : Type} (t : Tbl α) (k : Nat) (u v : α) : tset (tset t k u) k v = tset t k v := by
  induction t with
  | nil => simp [tset]
  | cons x r ih =>
    obtain ⟨j, w⟩ := x
    rcases Nat.lt_trichotomy j k with h | rfl | h
    · simp [tset, h.ne, Nat.lt_asymm h, ih]
    · simp [tset]
    · simp [tset, h.ne', h]

theorem setCore_setCore (s : State) (c : Nat) (k l : Core) : setCore (setCore s c k) c l = setCore s c l := by
  simp [setCore, tset_tset]

theorem coreReg_setRun (k : Core) (id : RunId) (r : Run) (o : Nat) : coreReg (k.setRun id r) o = coreReg k o := by
  cases id <;> rfl

section
variable {s : State} {c : CoreIx} {id : RunId} {r r' : Run} {g : Guard} {us : List (BitVec 5)} {eff : Site → Act} {bad : Bool}

/-! ### What a ready run reads -/

theorem readS_of_ready (h : Ready s c id r g us) (n : BitVec 5) : readS s c id n = rdS (theSite s c id r).x r n := by
  simp only [readS, mayIssue_runOf h.1]

theorem readP_of_ready (h : Ready s c id r g us) (n : BitVec 3) : readP s c id n = rdP r n := by
  simp only [readP, mayIssue_runOf h.1]

/-- p0 reads 1 (R57). -/
theorem readP_zero (h : runOf (getCore s c.val) id = some r) : readP s c id 0 = true := by
  simp [readP, h, rdP]

/-! ### Who may write a scalar register (R57) -/

theorem badRd_of_mayWrite {rd : BitVec 5} (hm : MayWrite id rd) : badRd (theSite s c id r) rd = false := by
  rcases hm with rfl | hlt
  · rfl
  · simp [badRd, hlt]

theorem badRd_of_not_mayWrite {rd : BitVec 5} (hm : ¬ MayWrite id rd) : badRd (theSite s c id r) rd = true := by
  cases id with
  | setup => exact absurd (.inl rfl) hm
  | slot n =>
    have : 24 ≤ rd.toNat := Nat.not_lt.mp fun hlt => hm (.inr hlt)
    simp [badRd, RunId.isSetup, this]

/-! ### What the act of a ready run makes of the state -/

theorem issue_trap {cause info : Nat} (h : Ready s c id r g us) (hb : bad = false) (he : eff (theSite s c id r) = .trap cause info) :
    issue c id g bad us eff s = .next (trapState s c id r cause info) := by
  rw [issue_ready h hb, he, doAct_trap]

theorem issue_set (h : Ready s c id r g us) (hb : bad = false) (he : eff (theSite s c id r) = .go (getCore s c.val) r' .set (fun u => u)) :
    ∃ t, issue c id g bad us eff s = .next t ∧ OnlyRun s t c id r' :=
  ⟨_, by rw [issue_ready h hb, he]; rfl, onlyRun_same r'⟩

theorem issue_seq (h : Ready s c id r g us) (hb : bad = false) (he : eff (theSite s c id r) = .go (getCore s c.val) r .seq (fun u => u))
    (hp : pastWord r r.pc.toNat = (r', false)) : ∃ t, issue c id g bad us eff s = .next t ∧ OnlyRun s t c id r' :=
  ⟨_, by rw [issue_ready h hb, he, doAct_go_seq, hp, settle_false], onlyRun_same r'⟩

/-- Where execution passes word 511, the trap is taken in a state that holds the run as the end of its word has left it (log 16). -/
theorem settle_true (k : Core) : settle s c.val id k r' (fun u => u) true = trapState (setCore s c.val (k.setRun id r')) c id r' PC_RANGE 0 := by
  rw [trapState, getCore_setCore, setCore_setCore]; rfl

/-! ### A write of a scalar register, wherever the run goes on -/

theorem wrS_run (i : Site) (rd : BitVec 5) (v : Word) : (wrS i rd v).2 = { i.r with s := (wrS i rd v).2.s } := by
  unfold wrS; split <;> rfl

/-- Reading a table of registers of which one has been written. -/
theorem tget_tset_reg (t : Tbl Word) (rd n : BitVec 5) (v : Word) :
    tget (tset t rd.toNat v) n.toNat 0 = if n = rd then v else tget t n.toNat 0 := by
  rw [tget_tset]; simp only [BitVec.toNat_inj, eq_comm]

/-- Putting a run back leaves the shared scalar registers of every context. -/
theorem shared_ctxOf_issued (k : Core) (id : RunId) (r : Run) (x : Nat) : (ctxOf (k.setRun id r).issued x).shared = (ctxOf k x).shared := by
  rw [ctxOf_issued]
  split
  · next hx => rw [hx.2]
  · rfl

/-- What a run reads once it has been put back into core `k`. -/
theorem readS_setRun (k : Core) (r' : Run) (n : BitVec 5) :
    readS (setCore s c.val (k.setRun id r').issued) c id n =
      if n.toNat < 24 then tget r'.s n.toNat 0 else tget (ctxOf k k.active).shared n.toNat 0 := by
  simp only [readS, getCore_setCore, runOf_setRun_issued, issued_active, rdS, shared_ctxOf_issued]

/-- A scalar register written by a run that may write it: the rest of the run may stand as any `r'`. -/
theorem wroteSTo_wrS {rd : BitVec 5} {v : Word} (h : Ready s c id r g us) (hm : MayWrite id rd) (r' : Run) :
    WroteSTo s (setCore s c.val ((wrS (theSite s c id r) rd v).1.setRun id { r' with s := (wrS (theSite s c id r) rd v).2.s }).issued)
      c id r' rd v := by
  have hread (n : BitVec 5) : readS s c id n =
      if n.toNat < 24 then tget r.s n.toNat 0 else tget (theSite s c id r).x.shared n.toNat 0 := readS_of_ready h n
  by_cases hlt : rd.toNat < 24
  · simp only [wrS, hlt, if_true]
    refine ⟨fun n => ?_, _, onlyRun_same _⟩
    rw [readS_setRun, hread, tget_tset_reg]
    by_cases hn : n.toNat < 24
    · simp only [hn, if_true]
    · have hne : n ≠ rd := fun e => hn (e ▸ hlt)
      simp only [hn, hne, if_false]
  · obtain rfl : id = .setup := hm.resolve_right hlt
    simp only [wrS, hlt, if_false]
    refine ⟨fun n => ?_, _, onlyRun_settle _ _⟩
    rw [readS_setRun, hread]
    by_cases hn : n.toNat < 24
    · have hne : n ≠ rd := fun e => hlt (e ▸ hn)
      simp only [hn, hne, if_true, if_false]
    · simp only [hn, if_false, Core.setCtx, ctxOf, tget_tset_self, tget_tset_reg]

end

end Sys2Proof
end

section
/-! Proofs of the family of spec/03: the scalar instructions (R69, R70). What the operations compute, then one rule for each format, from which
the statement's clauses follow instruction by instruction. -/
namespace Sys2Proof

open Machine

/-! ### The operations as arithmetic modulo 2^32 -/

theorem w32_toNat (a : Word) : w32 a.toNat = a := BitVec.eq_of_toNat_eq (by simp [w32])

theorem aluAdd_eq_w32 (a b : Word) : aluAdd a b = w32 (a.toNat + b.toNat) := by
  rw [w32, BitVec.ofNat_add]; simp [aluAdd]
theorem aluAdd_eq_ofInt (a b : Word) : aluAdd a b = BitVec.ofInt 32 (a.toInt + b.toInt) := by
  rw [BitVec.ofInt_add, BitVec.ofInt_toInt, BitVec.ofInt_toInt, aluAdd]
theorem aluSub_eq_ofInt (a b : Word) : aluSub a b = BitVec.ofInt 32 (a.toInt - b.toInt) := by
  rw [Int.sub_eq_add_neg, BitVec.ofInt_add, BitVec.ofInt_neg, BitVec.ofInt_toInt, BitVec.ofInt_toInt, aluSub, BitVec.sub_eq_add_neg]
theorem aluMul_eq_w32 (a b : Word) : aluMul a b = w32 (a.toNat * b.toNat) :=
  BitVec.eq_of_toNat_eq (by simp [aluMul, w32])
theorem aluMul_eq_ofInt (a b : Word) : aluMul a b = BitVec.ofInt 32 (a.toInt * b.toInt) := by
  rw [BitVec.ofInt_mul, BitVec.ofInt_toInt, BitVec.ofInt_toInt, aluMul]

theorem aluShl_eq_w32 (a b : Word) : aluShl a b = w32 (a.toNat * 2 ^ (b.toNat % 32)) :=
  BitVec.eq_of_toNat_eq (by simp [aluShl, w32, Nat.shiftLeft_eq])
theorem aluShr_eq_w32 (a b : Word) : aluShr a b = w32 (a.toNat / 2 ^ (b.toNat % 32)) := by
  rw [← Nat.shiftRight_eq_div_pow, ← BitVec.toNat_ushiftRight, w32_toNat]; rfl
/-- An arithmetic shift divides the signed value and rounds down. -/
theorem aluSra_eq_ofInt (a b : Word) : aluSra a b = BitVec.ofInt 32 (a.toInt / 2 ^ (b.toNat % 32)) := by
  have h := Int.shiftRight_eq_div_pow a.toInt (b.toNat % 32)
  rw [← BitVec.toInt_sshiftRight] at h
  push_cast at h
  rw [← h, BitVec.ofInt_toInt, aluSra]

theorem aluMin_eq_ofInt (a b : Word) : aluMin a b = BitVec.ofInt 32 (min a.toInt b.toInt) := by
  unfold aluMin
  split
  · rw [min_eq_right (by omega), BitVec.ofInt_toInt]
  · rw [min_eq_left (by omega), BitVec.ofInt_toInt]
theorem aluMax_eq_ofInt (a b : Word) : aluMax a b = BitVec.ofInt 32 (max a.toInt b.toInt) := by
  unfold aluMax
  split
  · rw [max_eq_right (by omega), BitVec.ofInt_toInt]
  · rw [max_eq_left (by omega), BitVec.ofInt_toInt]
theorem aluMinu_eq_w32 (a b : Word) : aluMinu a b = w32 (min a.toNat b.toNat) := by
  unfold aluMinu
  split
  · rw [min_eq_right (by omega), w32_toNat]
  · rw [min_eq_left (by omega), w32_toNat]
theorem aluMaxu_eq_w32 (a b : Word) : aluMaxu a b = w32 (max a.toNat b.toNat) := by
  unfold aluMaxu
  split
  · rw [max_eq_right (by omega), w32_toNat]
  · rw [max_eq_left (by omega), w32_toNat]

theorem cmpEq_iff (a b : Word) : cmpEq a b = true ↔ a.toNat = b.toNat := by simp [cmpEq, BitVec.toNat_inj]
theorem cmpNe_iff (a b : Word) : cmpNe a b = true ↔ a.toNat ≠ b.toNat := by simp [cmpNe, BitVec.toNat_inj]
theorem cmpLt_iff (a b : Word) : cmpLt a b = true ↔ a.toInt < b.toInt := by simp [cmpLt]
theorem cmpLtu_iff (a b : Word) : cmpLtu a b = true ↔ a.toNat < b.toNat := by simp [cmpLtu]
theorem cmpGe_iff (a b : Word) : cmpGe a b = true ↔ a.toInt ≥ b.toInt := by simp [cmpGe]
theorem cmpGeu_iff (a b : Word) : cmpGeu a b = true ↔ a.toNat ≥ b.toNat := by simp [cmpGeu]

/-- R35: of the tags only the low halves of the registers count, and their distance is taken modulo 2^16. -/
theorem tagYng_iff (a b : Word) : tagYng a b = true ↔ 1 ≤ (a.toNat % 65536 + 65536 - b.toNat % 65536) % 65536 ∧
    (a.toNat % 65536 + 65536 - b.toNat % 65536) % 65536 ≤ 32767 := by
  have hd : (a.setWidth 16 - b.setWidth 16 : Tag).toNat = (a.toNat % 65536 + 65536 - b.toNat % 65536) % 65536 := by
    rw [BitVec.toNat_sub, BitVec.toNat_setWidth, BitVec.toNat_setWidth]
    omega
  simp only [tagYng, younger, hd, Bool.and_eq_true, decide_eq_true_eq]
  omega

/-! ### One rule for each format -/

/-- The rule of format A operations that write rd. -/
theorem computesA_of_aluA {mk : CoreIx → RunId → FmtA → Instr} {op val : Word → Word → Word}
    (hx : ∀ c id f s, exec (mk c id f) s = aluA op c id f s) (hv : ∀ a b, op a b = val a b) : ComputesA mk val := by
  intro s c id r f h hrsv hpd hm hn
  rw [hx, ← hv, readS_of_ready h, readS_of_ready h]
  exact issue_putS h (by simp [hrsv, hpd]) hm hn rfl

/-- The rule of format B operations that write rd. -/
theorem computesB_of_aluB {mk : CoreIx → RunId → FmtB → Instr} {op val : Word → Word → Word}
    (hx : ∀ c id f s, exec (mk c id f) s = aluB op c id f s) (hv : ∀ a b, op a b = val a b) : ComputesB mk val := by
  intro s c id r f h hrsv hpd hm hn
  rw [hx, ← hv, readS_of_ready h]
  exact issue_putS h (by simp [hrsv, hpd]) hm hn rfl

/-- The rule of format A comparisons. -/
theorem comparesA_of_cmpA {mk : CoreIx → RunId → FmtA → Instr} {op : Word → Word → Bool} {val : Word → Word → Prop}
    (hx : ∀ c id f s, exec (mk c id f) s = cmpA op c id f s) (hv : ∀ a b, op a b = true ↔ val a b) : ComparesA mk val := by
  intro s c id r f h hrsv hrd hn
  rw [hx, ← hv, readS_of_ready h, readS_of_ready h]
  obtain ⟨t, ht, hw⟩ := issue_putP h (bad := f.rsv != 0 || f.rd != 0)
    (eff := fun i => putP i f.pd (op (rdS i.x i.r f.rs1) (rdS i.x i.r f.rs2))) (by simp [hrsv, hrd]) hn rfl
  exact ⟨t, _, ht, Iff.rfl, hw⟩

/-- The rule of format B comparisons. -/
theorem comparesB_of_cmpB {mk : CoreIx → RunId → FmtB → Instr} {op : Word → Word → Bool} {val : Word → Word → Prop}
    (hx : ∀ c id f s, exec (mk c id f) s = cmpB op c id f s) (hv : ∀ a b, op a b = true ↔ val a b) : ComparesB mk val := by
  intro s c id r f h hrsv hrd hn
  rw [hx, ← hv, readS_of_ready h]
  obtain ⟨t, ht, hw⟩ := issue_putP h (bad := f.rsv != 0 || f.rd != 0)
    (eff := fun i => putP i f.pd (op (rdS i.x i.r f.rs1) f.imm)) (by simp [hrsv, hrd]) hn rfl
  exact ⟨t, _, ht, Iff.rfl, hw⟩

/-- The rule of the operations on predicates. -/
theorem computesP_of_predA {mk : CoreIx → RunId → FmtA → Instr} {one : Bool} {op : Bool → Bool → Bool}
    (hx : ∀ c id f s, exec (mk c id f) s = predA one op c id f s) : ComputesP mk one op := by
  intro s c id r f h hrsv hrd h1 h2 hone hn
  rw [hx, readP_of_ready h, readP_of_ready h, BitVec.ofNat_toNat, BitVec.ofNat_toNat]
  have hbad : (f.rsv != 0 || f.rd != 0 || decide (f.rs1.toNat ≥ 8) || decide (f.rs2.toNat ≥ 8) || (one && f.rs2 != 0)) = false := by
    have hr2 : (one && f.rs2 != 0) = false := by
      cases one
      · rfl
      · simp [hone rfl]
    rw [hr2]
    simp [hrsv, hrd, h1, h2]
  exact issue_putP h hbad hn rfl

/-! ### sel, li and mfs -/

section
variable {s : State} {c : CoreIx} {id : RunId} {r : Run} {g : Guard} {us : List (BitVec 5)}

theorem exec_sel (f : FmtA) : exec (.sel c id f) s = execSel c id f s := rfl
theorem exec_li (f : FmtB) : exec (.li c id f) s = execLi c id f s := rfl
theorem exec_mfs (f : FmtA) : exec (.mfs c id f) s = execMfs c id f s := rfl

theorem sel_writes {f : FmtA} (h : Ready s c id r f.g [f.rd, f.rs1, f.rs2]) (hrsv : f.rsv = 0) (hm : MayWrite id f.rd) (hn : HasNext r) :
    ∃ t, exec (.sel c id f) s = .next t ∧
      WroteS s t c id r f.rd (if readP s c id f.pd then readS s c id f.rs1 else readS s c id f.rs2) := by
  rw [exec_sel, execSel, readP_of_ready h, readS_of_ready h, readS_of_ready h]
  exact issue_putS h (by simp [hrsv]) hm hn rfl

theorem li_writes {f : FmtB} (h : Ready s c id r f.g [f.rd]) (hrsv : f.rsv = 0) (hpd : f.pd = 0) (hrs1 : f.rs1 = 0) (hm : MayWrite id f.rd)
    (hn : HasNext r) : ∃ t, exec (.li c id f) s = .next t ∧ WroteS s t c id r f.rd f.imm := by
  rw [exec_li, execLi]
  exact issue_putS h (by simp [hrsv, hpd, hrs1]) hm hn rfl

/-- What an instruction does outside the core comes after the run has been put back, where the run has a next word. -/
theorem doAct_putS_post {i : Site} {rd : BitVec 5} {v : Word} (post : State → State) (hbad : badRd i rd = false) (hn : HasNext i.r) :
    doAct i (.go (wrS i rd v).1 (wrS i rd v).2 .seq post) = post (doAct i (putS i rd v)) := by
  have hp : (pastWord (wrS i rd v).2 i.r.pc.toNat).2 = false := by
    unfold wrS
    split
    · rw [pastWord_setS]; exact hn
    · exact hn
  simp only [putS, hbad, Bool.false_eq_true, if_false, doAct_go_seq, hp, settle_false]

/-- `mfs` writes the special register to rd; a read of CYCLES (register 7) moves the cluster's cycle count besides. -/
theorem mfs_writes {f : FmtA} (h : Ready s c id r f.g [f.rd]) (hrsv : f.rsv = 0) (hpd : f.pd = 0) (hrs2 : f.rs2 = 0) (hrs1 : f.rs1.toNat < 9)
    (hm : MayWrite id f.rd) (hn : HasNext r) :
    ∃ t, exec (.mfs c id f) s = .next (if f.rs1 = 7 then (clCycles t (c.val / 32)).2 else t) ∧
      WroteS s t c id r f.rd (special (theSite s c id r) ((clCycles s (c.val / 32)).1.setWidth 32) f.rs1.toNat) := by
  have hb : (f.rsv != 0 || f.pd != 0 || f.rs2 != 0 || decide (f.rs1.toNat ≥ 9)) = false := by simp [hrsv, hpd, hrs2, hrs1]
  obtain ⟨t, ht, hw⟩ := issue_putS h (eff := fun i => putS i f.rd (special i ((clCycles i.s (i.c / 32)).1.setWidth 32) f.rs1.toNat)) hb hm hn rfl
  refine ⟨t, ?_, hw⟩
  have hbad : badRd (theSite s c id r) f.rd = false := badRd_of_mayWrite hm
  rw [issue_ready h hb] at ht
  rw [← Host.Outcome.next.inj ht, ← doAct_putS_post (fun u => if f.rs1 = 7 then (clCycles u (c.val / 32)).2 else u) hbad hn]
  rw [exec_mfs, execMfs, issue_ready h hb]
  simp only [putS, hbad, Bool.false_eq_true, if_false]

theorem readS_clCycles (t : State) (n : Nat) (m : BitVec 5) : readS (clCycles t n).2 c id m = readS t c id m := rfl

/-- R70: the special registers but CYCLES, by number. -/
theorem special_eq_ite {i : Site} {cyc : Word} {n : BitVec 5} (hlt : n.toNat < 9) (h7 : n ≠ 7) :
    special i cyc n.toNat = if n = 0 then w32 i.x.rank else if n = 1 then w32 i.x.ncores else if n = 2 then w32 i.c
      else if n = 3 then w32 (placeCore i.c) else if n = 4 then w32 i.k.active else if n = 5 then w32 i.x.window
      else if n = 6 then w32 (ctxPart i.x) else w32 i.k.firings.length := by
  have hn : n ∈ [0, 1, 2, 3, 4, 5, 6, 8] := by
    revert n; decide
  simp only [List.mem_cons, List.not_mem_nil, or_false] at hn
  rcases hn with rfl | rfl | rfl | rfl | rfl | rfl | rfl | rfl <;> rfl

/-- R70: what `mfs` changes, register by register. -/
theorem mfs_rule {f : FmtA} (h : Ready s c id r f.g [f.rd]) (hrsv : f.rsv = 0) (hpd : f.pd = 0) (hrs2 : f.rs2 = 0) (hrs1 : f.rs1.toNat < 9)
    (hm : MayWrite id f.rd) (hn : HasNext r) :
    ∃ t, exec (.mfs c id f) s = .next t ∧ (∀ n, n ≠ f.rd → readS t c id n = readS s c id n) ∧
      (f.rs1 ≠ 7 → WroteS s t c id r f.rd (special (theSite s c id r) ((clCycles s (c.val / 32)).1.setWidth 32) f.rs1.toNat)) := by
  obtain ⟨t, ht, hw⟩ := mfs_writes h hrsv hpd hrs2 hrs1 hm hn
  refine ⟨_, ht, fun n hne => ?_, fun h7 => ?_⟩
  · have hr : readS t c id n = readS s c id n := by rw [hw.1 n, if_neg hne]
    split
    · rw [readS_clCycles, hr]
    · exact hr
  · rw [if_neg h7]; exact hw
end

/-- Settles O3: each scalar format has one rule, and each instruction is that rule at its operation. -/
theorem scalarResults : Obligations.ScalarResults := by
  unfold Obligations.ScalarResults
  refine ⟨⟨?add, ?sub, ?mul, ?mulh, ?mulhu, ?addi, ?muli⟩,
    ⟨?and, ?or, ?xor, ?shl, ?shr, ?sra, ?andi, ?ori, ?xori, ?shli, ?shri, ?srai⟩,
    ⟨?min, ?max, ?minu, ?maxu, ?sel, ?li, ?mfs⟩,
    ⟨?cmpEq, ?cmpNe, ?cmpLt, ?cmpLtu, ?cmpGe, ?cmpGeu, ?tagYng, ?cmpiEq, ?cmpiNe, ?cmpiLt, ?cmpiLtu, ?cmpiGe, ?cmpiGeu⟩,
    ⟨?pand, ?por, ?pxor, ?pnot, ?p0⟩⟩
  case add => exact computesA_of_aluA (fun _ _ _ _ => rfl) aluAdd_eq_w32
  case sub => exact computesA_of_aluA (fun _ _ _ _ => rfl) aluSub_eq_ofInt
  case mul => exact computesA_of_aluA (fun _ _ _ _ => rfl) aluMul_eq_w32
  case mulh => exact computesA_of_aluA (fun _ _ _ _ => rfl) (fun _ _ => rfl)
  case mulhu => exact computesA_of_aluA (fun _ _ _ _ => rfl) (fun _ _ => rfl)
  case addi => exact computesB_of_aluB (fun _ _ _ _ => rfl) aluAdd_eq_ofInt
  case muli => exact computesB_of_aluB (fun _ _ _ _ => rfl) aluMul_eq_ofInt
  case and => exact computesA_of_aluA (fun _ _ _ _ => rfl) (fun _ _ => rfl)
  case or => exact computesA_of_aluA (fun _ _ _ _ => rfl) (fun _ _ => rfl)
  case xor => exact computesA_of_aluA (fun _ _ _ _ => rfl) (fun _ _ => rfl)
  case shl => exact computesA_of_aluA (fun _ _ _ _ => rfl) aluShl_eq_w32
  case shr => exact computesA_of_aluA (fun _ _ _ _ => rfl) aluShr_eq_w32
  case sra => exact computesA_of_aluA (fun _ _ _ _ => rfl) aluSra_eq_ofInt
  case andi => exact computesB_of_aluB (fun _ _ _ _ => rfl) (fun _ _ => rfl)
  case ori => exact computesB_of_aluB (fun _ _ _ _ => rfl) (fun _ _ => rfl)
  case xori => exact computesB_of_aluB (fun _ _ _ _ => rfl) (fun _ _ => rfl)
  case shli => exact computesB_of_aluB (fun _ _ _ _ => rfl) aluShl_eq_w32
  case shri => exact computesB_of_aluB (fun _ _ _ _ => rfl) aluShr_eq_w32
  case srai => exact computesB_of_aluB (fun _ _ _ _ => rfl) aluSra_eq_ofInt
  case min => exact computesA_of_aluA (fun _ _ _ _ => rfl) aluMin_eq_ofInt
  case max => exact computesA_of_aluA (fun _ _ _ _ => rfl) aluMax_eq_ofInt
  case minu => exact computesA_of_aluA (fun _ _ _ _ => rfl) aluMinu_eq_w32
  case maxu => exact computesA_of_aluA (fun _ _ _ _ => rfl) aluMaxu_eq_w32
  case sel => exact fun _ _ _ _ _ h hrsv hm hn => sel_writes h hrsv hm hn
  case li => exact fun _ _ _ _ _ h hrsv hpd hrs1 hm hn => li_writes h hrsv hpd hrs1 hm hn
  case mfs =>
    intro s c id r f h hrsv hpd hrs2 hrs1 hm hn
    obtain ⟨t, ht, hframe, hw⟩ := mfs_rule h hrsv hpd hrs2 hrs1 hm hn
    refine ⟨t, ht, hframe, fun h7 => ?_⟩
    rw [← special_eq_ite (i := theSite s c id r) hrs1 h7]
    exact hw h7
  case cmpEq => exact comparesA_of_cmpA (fun _ _ _ _ => rfl) cmpEq_iff
  case cmpNe => exact comparesA_of_cmpA (fun _ _ _ _ => rfl) cmpNe_iff
  case cmpLt => exact comparesA_of_cmpA (fun _ _ _ _ => rfl) cmpLt_iff
  case cmpLtu => exact comparesA_of_cmpA (fun _ _ _ _ => rfl) cmpLtu_iff
  case cmpGe => exact comparesA_of_cmpA (fun _ _ _ _ => rfl) cmpGe_iff
  case cmpGeu => exact comparesA_of_cmpA (fun _ _ _ _ => rfl) cmpGeu_iff
  case tagYng => exact comparesA_of_cmpA (fun _ _ _ _ => rfl) tagYng_iff
  case cmpiEq => exact comparesB_of_cmpB (fun _ _ _ _ => rfl) cmpEq_iff
  case cmpiNe => exact comparesB_of_cmpB (fun _ _ _ _ => rfl) cmpNe_iff
  case cmpiLt => exact comparesB_of_cmpB (fun _ _ _ _ => rfl) cmpLt_iff
  case cmpiLtu => exact comparesB_of_cmpB (fun _ _ _ _ => rfl) cmpLtu_iff
  case cmpiGe => exact comparesB_of_cmpB (fun _ _ _ _ => rfl) cmpGe_iff
  case cmpiGeu => exact comparesB_of_cmpB (fun _ _ _ _ => rfl) cmpGeu_iff
  case pand => exact computesP_of_predA (fun _ _ _ _ => rfl)
  case por => exact computesP_of_predA (fun _ _ _ _ => rfl)
  case pxor => exact computesP_of_predA (fun _ _ _ _ => rfl)
  case pnot => exact computesP_of_predA (fun _ _ _ _ => rfl)
  case p0 => exact fun _ _ _ _ h => readP_zero h

end Sys2Proof
end

section
/-! Proofs of the family of spec/03: branches, the end of a word and loops (R71, R72): for each the rule of the spec's pseudocode, then
the instructions that follow it. -/
namespace Sys2Proof

open Machine

section
variable {s : State} {c : CoreIx} {id : RunId} {r r' : Run} {g : Guard} {us : List (BitVec 5)} {eff : Site → Act} {bad : Bool}

/-! ### Branches (R71) -/

theorem leaveLoops_eq_dropWhile (t : Nat) (ls : List Loop) :
    leaveLoops t ls = ls.dropWhile (fun l => !(decide (l.start.toNat ≤ t) && decide (t ≤ l.last.toNat))) := by
  induction ls with
  | nil => rfl
  | cons l ls ih =>
    by_cases hin : l.start.toNat ≤ t ∧ t ≤ l.last.toNat
    · simp [leaveLoops, hin]
    · have hout : (decide (l.start.toNat ≤ t) && decide (t ≤ l.last.toNat)) = false := by simpa using hin
      rw [leaveLoops, if_neg hin, List.dropWhile_cons, hout, ih]
      rfl

theorem doAct_jump (i : Site) (k : Core) (r : Run) (t : BitVec 9) :
    doAct i (.go k r (.jump t) (fun u => u)) = setCore i.s i.c (k.setRun i.id (jumped r t)).issued := by
  rw [jumped, ← leaveLoops_eq_dropWhile]; rfl

theorem goTo_far (k : Core) (r : Run) {t : BitVec 9} (ht : 2 ≤ t.toNat) : goTo k r t = .go k r (.jump t) (fun u => u) :=
  if_neg (Nat.not_lt.mpr ht)

theorem goTo_near (k : Core) (r : Run) {t : BitVec 9} (ht : t.toNat < 2) : goTo k r t = .trap PC_RANGE 0 := if_pos ht

theorem issue_goTo {t : BitVec 9} (h : Ready s c id r g us) (hb : bad = false) (he : eff (theSite s c id r) = goTo (getCore s c.val) r t)
    (ht : 2 ≤ t.toNat) : ∃ u, issue c id g bad us eff s = .next u ∧ OnlyRun s u c id (jumped r t) :=
  ⟨_, by rw [issue_ready h hb, he, goTo_far _ _ ht, doAct_jump], onlyRun_same _⟩

/-! ### The branch instructions -/

theorem exec_br (f : FmtC) : exec (.br c id f) s = execBr c id f s := rfl
theorem exec_jal (f : FmtC) : exec (.jal c id f) s = execJal c id f s := rfl
theorem exec_jr (f : FmtC) : exec (.jr c id f) s = execJr c id f s := rfl

theorem br_rule {f : FmtC} (h : Ready s c id r f.g []) (hrsv : f.rsv = 0) (himm : f.imm = 0) (hr1 : f.r1 = 0) :
    (2 ≤ f.target.toNat → ∃ t, exec (.br c id f) s = .next t ∧ OnlyRun s t c id (jumped r f.target)) ∧
    (f.target.toNat < 2 → exec (.br c id f) s = .next (trapState s c id r 0x04 0)) := by
  have hb : (f.rsv != 0 || f.r1 != 0 || f.imm != 0) = false := by simp [hrsv, himm, hr1]
  rw [exec_br, execBr]
  exact ⟨issue_goTo h hb rfl, fun ht => issue_trap h hb (goTo_near _ _ ht)⟩

theorem jal_jumps {f : FmtC} (h : Ready s c id r f.g [f.r1]) (hrsv : f.rsv = 0) (himm : f.imm = 0) (hm : MayWrite id f.r1)
    (ht : 2 ≤ f.target.toNat) :
    ∃ t, exec (.jal c id f) s = .next t ∧ WroteSTo s t c id (jumped r f.target) f.r1 (w32 (r.pc.toNat + 1)) := by
  refine ⟨_, ?_, wroteSTo_wrS h hm (jumped r f.target)⟩
  rw [exec_jal, execJal, issue_ready h (by simp [hrsv, himm]), if_neg (Nat.not_lt.mpr ht), badRd_of_mayWrite hm, if_neg Bool.false_ne_true]
  simp only [goTo_far _ _ ht, doAct_jump]
  rw [wrS_run]
  rfl

theorem jal_traps {f : FmtC} (h : Ready s c id r f.g [f.r1]) (hrsv : f.rsv = 0) (himm : f.imm = 0) :
    (f.target.toNat < 2 → exec (.jal c id f) s = .next (trapState s c id r 0x04 0)) ∧
    (2 ≤ f.target.toNat → ¬ MayWrite id f.r1 → exec (.jal c id f) s = .next (trapState s c id r 0x05 0)) := by
  have hb : (f.rsv != 0 || f.imm != 0) = false := by simp [hrsv, himm]
  rw [exec_jal, execJal]
  refine ⟨fun ht => issue_trap h hb (if_pos ht), fun ht hm => issue_trap h hb ?_⟩
  rw [if_neg (Nat.not_lt.mpr ht), badRd_of_not_mayWrite hm]
  rfl

theorem jr_rule {f : FmtC} (h : Ready s c id r f.g [f.r1]) (hrsv : f.rsv = 0) (himm : f.imm = 0) (htg : f.target = 0) :
    (2 ≤ (readS s c id f.r1).toNat → (readS s c id f.r1).toNat < 512 → ∃ t, exec (.jr c id f) s = .next t ∧
      OnlyRun s t c id (jumped r ((readS s c id f.r1).setWidth 9))) ∧
    ((readS s c id f.r1).toNat < 2 ∨ 512 ≤ (readS s c id f.r1).toNat → exec (.jr c id f) s = .next (trapState s c id r 0x04 0)) := by
  have hb : (f.rsv != 0 || f.imm != 0 || f.target != 0) = false := by simp [hrsv, himm, htg]
  have hw : ∀ v : Word, v.toNat < 512 → (v.setWidth 9).toNat = v.toNat := fun v hv => by
    rw [BitVec.toNat_setWidth]; exact Nat.mod_eq_of_lt hv
  rw [exec_jr, execJr, readS_of_ready h]
  generalize hv : rdS (theSite s c id r).x r f.r1 = v
  refine ⟨fun h2 h512 => issue_goTo h hb ?_ (by rwa [hw v h512]), fun hout => issue_trap h hb ?_⟩
  · simp only [hv, Nat.not_le.mpr h512, if_false]
  · by_cases h512 : 512 ≤ v.toNat
    · simp only [hv, h512, if_true]; rfl
    · have h2 : v.toNat < 2 := hout.resolve_right h512
      simp only [hv, h512, if_false]
      exact goTo_near _ _ (by rw [hw v (by omega)]; exact h2)

/-! ### The end of a word (R72) -/

/-- The word after `pc` where there is one. -/
theorem ofNat_succ_pc (pc : BitVec 9) : BitVec.ofNat 9 (pc.toNat + 1) = pc + 1 :=
  BitVec.eq_of_toNat_eq (by simp)

theorem ofNat_pc (pc : BitVec 9) : BitVec.ofNat 9 pc.toNat = pc := by simp

theorem endWord_other {at_ : Nat} {l : Loop} (ls : List Loop) (h : at_ ≠ l.last.toNat) : endWord at_ (l :: ls) = (l :: ls, at_ + 1) :=
  if_neg h

theorem endWord_again {at_ : Nat} {l : Loop} (ls : List Loop) (h : at_ = l.last.toNat) (hl : 2 ≤ l.left) :
    endWord at_ (l :: ls) = ({ l with left := l.left - 1 } :: ls, l.start.toNat) := by
  rw [endWord, if_pos h, if_pos (by omega)]

theorem endWord_leave {at_ : Nat} {l : Loop} (ls : List Loop) (h : at_ = l.last.toNat) (hl : l.left ≤ 1) :
    endWord at_ (l :: ls) = endWord at_ ls := by
  rw [endWord, if_pos h, if_neg (by omega)]

/-- Where no loop that ends here goes on, execution passes to the next word. -/
theorem endWord_passes {at_ : Nat} {ls : List Loop} (h : ∀ l ∈ ls, l.last.toNat = at_ → l.left ≤ 1) : (endWord at_ ls).2 = at_ + 1 := by
  induction ls with
  | nil => rfl
  | cons l ls ih =>
    by_cases hl : at_ = l.last.toNat
    · rw [endWord_leave ls hl (h l (List.mem_cons_self ..) hl.symm)]
      exact ih fun m hm => h m (List.mem_cons_of_mem _ hm)
    · rw [endWord_other ls hl]

theorem pastWord_of_endWord {at_ n : Nat} {ls : List Loop} (h : endWord at_ r.loops = (ls, n)) (hn : n < 512) :
    pastWord r at_ = ({ r with loops := ls, pc := BitVec.ofNat 9 n }, false) := by
  simp only [pastWord, h]
  exact if_neg (by omega)

/-- The run goes on to the next word, with the loops `ls` left. -/
theorem pastWord_succ {ls : List Loop} (h : endWord r.pc.toNat r.loops = (ls, r.pc.toNat + 1)) (hn : r.pc.toNat < 511) :
    pastWord r r.pc.toNat = ({ r with loops := ls, pc := r.pc + 1 }, false) := by
  rw [pastWord_of_endWord h (by omega), ofNat_succ_pc]

/-- The run goes back to the start of a loop. -/
theorem pastWord_start {ls : List Loop} {pc : BitVec 9} (h : endWord r.pc.toNat r.loops = (ls, pc.toNat)) :
    pastWord r r.pc.toNat = ({ r with loops := ls, pc := pc }, false) := by
  rw [pastWord_of_endWord h pc.isLt, ofNat_pc]

theorem exec_nop (f : FmtJ) : exec (.nop c id f) s = execNop c id f s := rfl

theorem nop_goes {f : FmtJ} (h : Ready s c id r f.g []) (hrsv : f.rsv = 0) (himm : f.imm = 0) (hp : pastWord r r.pc.toNat = (r', false)) :
    ∃ t, exec (.nop c id f) s = .next t ∧ OnlyRun s t c id r' := by
  rw [exec_nop, execNop]
  exact issue_seq h (by simp [hrsv, himm]) rfl hp

/-- R71: past word 511 the run raises PC_RANGE. -/
theorem nop_past_trapped {f : FmtJ} (h : Ready s c id r f.g []) (hrsv : f.rsv = 0) (himm : f.imm = 0)
    (hl : ∀ l ∈ r.loops, l.last = r.pc → l.left ≤ 1) (hpc : r.pc = 511) :
    ∃ t, exec (.nop c id f) s = .next t ∧ bit (coreReg (getCore t c.val) 0x004) 0 = true ∧
      (bit (coreReg (getCore s c.val) 0x004) 0 = false → fld (coreReg (getCore t c.val) 0x008) 7 0 = 0x04) := by
  have he : (endWord r.pc.toNat r.loops).2 = 512 := by
    rw [endWord_passes fun l hm heq => hl l hm (BitVec.eq_of_toNat_eq heq), hpc]; rfl
  have hp : (pastWord r r.pc.toNat).2 = true := by simp [pastWord, he]
  have htook := takeTrap_took (setCore s c.val ((getCore s c.val).setRun id (pastWord r r.pc.toNat).1)) c id (pastWord r r.pc.toNat).1
    PC_RANGE 0 (by decide) (by decide)
  refine ⟨_, ?_, htook.trapped, fun hs => (htook.record ?_).1⟩
  · rw [exec_nop, execNop, issue_ready h (by simp [hrsv, himm]), doAct_go_seq, hp, settle_true]
  · rw [getCore_setCore, coreReg_setRun]; exact hs

/-! ### loop and brk (R72) -/

theorem exec_loopI (f : FmtC) : exec (.loopI c id f) s = execLoopI c id f s := rfl
theorem exec_loopR (f : FmtC) : exec (.loopR c id f) s = execLoopR c id f s := rfl
theorem exec_brk (f : FmtC) : exec (.brk c id f) s = execBrk c id f s := rfl

theorem loopAct_backward {i : Site} {count : Nat} {last : BitVec 9} (h : last.toNat ≤ i.r.pc.toNat) : loopAct i count last = .trap ILLEGAL 0 :=
  if_pos h

theorem loopAct_skip {i : Site} {last : BitVec 9} (h : i.r.pc.toNat < last.toNat) (hp : (pastWord i.r last.toNat).2 = false) :
    loopAct i 0 last = .go i.k (pastWord i.r last.toNat).1 .set (fun u => u) := by
  simp only [loopAct, Nat.not_le.mpr h, hp, if_true, if_false, Bool.false_eq_true]

theorem loopAct_deep {i : Site} {count : Nat} {last : BitVec 9} (h : i.r.pc.toNat < last.toNat) (hc : count ≠ 0) (hd : 2 ≤ i.r.loops.length) :
    loopAct i count last = .trap LOOP_DEPTH 0 := by
  simp only [loopAct, Nat.not_le.mpr h, hc, hd, if_true, if_false]

theorem loopAct_enter {i : Site} {count : Nat} {last : BitVec 9} (h : i.r.pc.toNat < last.toNat) (hc : count ≠ 0) (hd : i.r.loops.length < 2) :
    loopAct i count last =
      .go i.k { i.r with loops := { start := i.r.pc + 1, last := last, left := count } :: i.r.loops, pc := i.r.pc + 1 } .set (fun u => u) := by
  simp only [loopAct, Nat.not_le.mpr h, hc, Nat.not_le.mpr hd, if_false]

/-- The rule of an instruction whose effect on a ready run is `loop(count, last)`. -/
theorem loopRule_of_loopAct {i : Instr} {count : Nat} {last : BitVec 9} (hx : exec i s = issue c id g bad us eff s) (h : Ready s c id r g us)
    (hb : bad = false) (he : eff (theSite s c id r) = loopAct (theSite s c id r) count last) : LoopRule s c id r i last count := by
  rw [LoopRule, hx]
  refine ⟨fun hlast => issue_trap h hb (he.trans (loopAct_backward hlast)),
    fun hlast hc hd => issue_trap h hb (he.trans (loopAct_deep hlast hc hd)),
    fun hlast hc hd => issue_set h hb (he.trans (loopAct_enter hlast hc hd)), fun hlast hc hp => ?_⟩
  subst hc
  exact issue_set h hb (he.trans (loopAct_skip hlast hp))

theorem loopI_rule {f : FmtC} (h : Ready s c id r f.g []) (hrsv : f.rsv = 0) (hr1 : f.r1 = 0) :
    LoopRule s c id r (.loopI c id f) f.target f.imm.toNat :=
  loopRule_of_loopAct (exec_loopI f) h (by simp [hrsv, hr1]) rfl

theorem loopR_rule {f : FmtC} (h : Ready s c id r f.g [f.r1]) (hrsv : f.rsv = 0) (himm : f.imm = 0) :
    LoopRule s c id r (.loopR c id f) f.target (readS s c id f.r1).toNat := by
  rw [readS_of_ready h]
  exact loopRule_of_loopAct (exec_loopR f) h (by simp [hrsv, himm]) rfl

theorem brk_rule {f : FmtC} (h : Ready s c id r f.g []) (hrsv : f.rsv = 0) (hr1 : f.r1 = 0) (himm : f.imm = 0) (htg : f.target = 0) :
    (r.loops = [] → exec (.brk c id f) s = .next (trapState s c id r 0x01 0)) ∧
    (∀ l ls, r.loops = l :: ls → l.last.toNat < 511 →
      ∃ t, exec (.brk c id f) s = .next t ∧ OnlyRun s t c id { r with loops := ls, pc := l.last + 1 }) := by
  have hb : (f.rsv != 0 || f.r1 != 0 || f.imm != 0 || f.target != 0) = false := by simp [hrsv, hr1, himm, htg]
  rw [exec_brk, execBrk]
  refine ⟨fun h0 => issue_trap h hb ?_, fun l ls h0 hlast => issue_set h hb ?_⟩
  · simp only [h0]; rfl
  · simp only [h0, Nat.ne_of_lt hlast, if_false]
end

/-- Settles O5: the branches by what `goTo` does, the end of a word by the case of `end_of_word` that the run's loops select, the loop
instructions by the rule of `loop`. -/
theorem controlFlow : Obligations.ControlFlow := by
  unfold Obligations.ControlFlow
  refine ⟨?branches, ?words, fun _ _ _ _ _ hrsv hr1 h => loopI_rule h hrsv hr1, fun _ _ _ _ _ hrsv himm h => loopR_rule h hrsv himm,
    fun _ _ _ _ _ hrsv hr1 himm htg h => brk_rule h hrsv hr1 himm htg⟩
  case branches =>
    intro s c id r f hrsv himm
    exact ⟨fun hr1 h => br_rule h hrsv himm hr1, fun h hm ht => jal_jumps h hrsv himm hm ht, fun h => jal_traps h hrsv himm,
      fun htg h => jr_rule h hrsv himm htg⟩
  case words =>
    intro s c id r f h hrsv himm
    have goes {r' : Run} := nop_goes (r' := r') h hrsv himm
    have atEnd {l : Loop} (hl : l.last = r.pc) : r.pc.toNat = l.last.toNat := congrArg BitVec.toNat hl.symm
    refine ⟨fun h0 hn => ?none, fun l ls h0 hl hn => ?other, fun l ls h0 hl h2 => ?again, fun l m ls h0 hl h1 hm h2 => ?outer,
      fun l h0 hl h1 hn => ?leave, nop_past_trapped h hrsv himm⟩
    case none => exact goes (pastWord_succ (ls := r.loops) (by rw [h0]; rfl) hn)
    case other =>
      have hne : r.pc.toNat ≠ l.last.toNat := fun e => hl (BitVec.eq_of_toNat_eq e.symm)
      exact goes (pastWord_succ (ls := r.loops) (by rw [h0, endWord_other ls hne]) hn)
    case again => exact goes (pastWord_start (by rw [h0, endWord_again ls (atEnd hl) h2]))
    case outer => exact goes (pastWord_start (by rw [h0, endWord_leave _ (atEnd hl) h1, endWord_again ls (atEnd hm) h2]))
    case leave => exact goes (pastWord_succ (by rw [h0, endWord_leave _ (atEnd hl) h1]; rfl) hn)

end Sys2Proof
end

section
/-! Proofs of the family of spec/03: local loads and stores (R73, R95). The bytes of a number and of a run of memory, then the checks of an access,
then one rule for the loads, one for the stores and one for what stops them. -/
namespace Sys2Proof

open Machine

/-! ### Bytes and numbers -/

@[simp] theorem length_leBytes (w v : Nat) : (leBytes w v).length = w := by
  induction w generalizing v with
  | zero => rfl
  | succ w ih => simp [leBytes, ih]

theorem toNat_getD_leBytes {w i : Nat} (v : Nat) (h : i < w) : ((leBytes w v).getD i 0).toNat = v / 256 ^ i % 256 := by
  induction w generalizing v i with
  | zero => exact absurd h (Nat.not_lt_zero i)
  | succ w ih =>
    cases i with
    | zero => simp [leBytes]
    | succ i =>
      rw [leBytes, List.getD_cons_succ, ih (v / 256) (Nat.lt_of_succ_lt_succ h), Nat.div_div_eq_div_mul, Nat.pow_succ']

/-- The bytes that a load reads, by the model's memory and by the statement's. -/
theorem mreadNat_eq_sramNat (s : State) (c : CoreIx) (a w : Nat) : mreadNat (getCore s c.val).sram a w = sramNat s c a w := by
  induction w generalizing a with
  | zero => rfl
  | succ w ih => rw [sramNat, ← ih]; rfl

theorem sramNat_lt (s : State) (c : CoreIx) (a w : Nat) : sramNat s c a w < 256 ^ w := by
  induction w generalizing a with
  | zero => exact Nat.one_pos
  | succ w ih =>
    have hb : (mread (getCore s c.val).sram a).toNat < 256 := (mread (getCore s c.val).sram a).isLt
    have hr := ih (a + 1)
    rw [sramNat, Nat.pow_succ]
    omega

theorem signed_of_lt {m v : Nat} (h : v < 2 ^ m) : signed m v = if v < 2 ^ (m - 1) then (v : Int) else (v : Int) - 2 ^ m := by
  rw [signed, Nat.mod_eq_of_lt h]

/-- A sign-extended half word. -/
theorem signed_two_bytes {n : Nat} (h : n < 256 ^ 2) : signed 16 n = if n < 2 ^ 15 then (n : Int) else (n : Int) - 2 ^ 16 :=
  signed_of_lt (by omega)

/-- A sign-extended byte. -/
theorem signed_one_byte {n : Nat} (h : n < 256 ^ 1) : signed 8 n = if n < 2 ^ 7 then (n : Int) else (n : Int) - 2 ^ 8 :=
  signed_of_lt (by omega)

section
variable {s : State} {c : CoreIx} {id : RunId} {r : Run} {g : Guard} {us : List (BitVec 5)}

/-! ### The checks of an access -/

theorem localAddr_eq_addrD {f : FmtD} (h : Ready s c id r g us) : localAddr (theSite s c id r) f = addrD s c id f := by
  rw [addrD, readS_of_ready h]; rfl

theorem localAct_misaligned {f : FmtD} {w : Nat} {eff : Nat → Act} (h : Ready s c id r g us) (ha : addrD s c id f % w ≠ 0) :
    localAct (theSite s c id r) f w eff = .trap ALIGN 0 := by
  simp only [localAct, localAddr_eq_addrD h, ha, ne_eq, not_false_eq_true, if_true]

theorem localAct_outside {f : FmtD} {w : Nat} {eff : Nat → Act} (h : Ready s c id r g us) (ha : addrD s c id f % w = 0)
    (hr : addrD s c id f + w > 0x40000) : localAct (theSite s c id r) f w eff = .trap SRAM_RANGE 0 := by
  simp only [localAct, localAddr_eq_addrD h, ha, hr, ne_eq, not_true_eq_false, if_true, if_false]

theorem localAct_free {f : FmtD} {w : Nat} {eff : Nat → Act} (h : Ready s c id r g us) (ha : addrD s c id f % w = 0)
    (hr : addrD s c id f + w ≤ 0x40000) (hacc : accBlock (getCore s c.val) [(addrD s c id f, w)] = none) :
    localAct (theSite s c id r) f w eff = eff (addrD s c id f) := by
  simp only [localAct, localAddr_eq_addrD h, ha, Nat.not_lt.mpr hr, hacc, ne_eq, not_true_eq_false, if_false]

theorem localAct_behind {f : FmtD} {w : Nat} {eff : Nat → Act} {x : Access} (h : Ready s c id r g us) (ha : addrD s c id f % w = 0)
    (hr : addrD s c id f + w ≤ 0x40000) (hacc : accBlock (getCore s c.val) [(addrD s c id f, w)] = some x) :
    localAct (theSite s c id r) f w eff = .sram (accBlocks (getCore s c.val) [(addrD s c id f, w)]) := by
  simp only [localAct, localAddr_eq_addrD h, ha, Nat.not_lt.mpr hr, hacc, ne_eq, not_true_eq_false, if_false]

/-- A wait behind accesses that load from no tier counts as an SRAM-order stall alone (R126, R210). -/
theorem chargeWait_no_tier {n : Nat} {as : List Access} (h : ∀ x ∈ as, x.tier = 0) :
    chargeWait s n as = setCore s n ((getCore s n).count 0x03C 1) := by
  have hnone {t : Nat} (ht : 0 ≠ t) : as.find? (fun a => a.tier == t) = none :=
    List.find?_eq_none.mpr fun x hx => by rw [h x hx]; simpa using ht
  simp only [chargeWait, List.foldl, hnone (show 0 ≠ 1 by decide), hnone (show 0 ≠ 2 by decide), hnone (show 0 ≠ 3 by decide)]

/-- R73, R95: what stops an access of `w` bytes, whatever it is to do. -/
theorem access_stops {f : FmtD} {w : Nat} {bad : Bool} {eff : Site → Act} {e : Nat → Act} (h : Ready s c id r g us) (hb : bad = false)
    (he : eff (theSite s c id r) = localAct (theSite s c id r) f w e) :
    (addrD s c id f % w ≠ 0 → issue c id g bad us eff s = .next (trapState s c id r 0x02 0)) ∧
    (addrD s c id f % w = 0 → addrD s c id f + w > 0x40000 → issue c id g bad us eff s = .next (trapState s c id r 0x03 0)) ∧
    (∀ a, addrD s c id f % w = 0 → addrD s c id f + w ≤ 0x40000 → accBlock (getCore s c.val) [(addrD s c id f, w)] = some a →
      (∀ x ∈ accBlocks (getCore s c.val) [(addrD s c id f, w)], x.tier = 0) →
      issue c id g bad us eff s = .next (setCore s c.val ((getCore s c.val).count 0x03C 1))) := by
  refine ⟨fun ha => issue_trap h hb (he.trans (localAct_misaligned h ha)), fun ha hr => issue_trap h hb (he.trans (localAct_outside h ha hr)),
    fun x ha hr hacc htier => ?_⟩
  rw [issue_ready h hb, he, localAct_behind h ha hr hacc, ← chargeWait_no_tier htier]
  rfl
end

/-! ### The loads -/

theorem exec_ldLHs (c : CoreIx) (id : RunId) (f : FmtD) (s : State) :
    exec (.ldLHs c id f) s = loadD 2 (fun v => BitVec.ofInt 32 (signed 16 v)) c id f s := rfl
theorem exec_ldLBs (c : CoreIx) (id : RunId) (f : FmtD) (s : State) :
    exec (.ldLBs c id f) s = loadD 1 (fun v => BitVec.ofInt 32 (signed 8 v)) c id f s := rfl

/-- The rule of the local loads: rd takes the extension of the bytes, and nothing else changes. -/
theorem loadsD_of_loadD {mk : CoreIx → RunId → FmtD → Instr} {w : Nat} {ext val : Nat → Word}
    (hx : ∀ c id f s, exec (mk c id f) s = loadD w ext c id f s) (hv : ∀ n, n < 256 ^ w → ext n = val n) : LoadsD mk w val := by
  intro s c id r f h hrsv hm hn ha hr hacc
  rw [hx, loadD, ← hv _ (sramNat_lt s c _ w), ← mreadNat_eq_sramNat]
  refine issue_putS h (by simp [hrsv]) hm hn ?_
  rw [badRd_of_mayWrite hm, if_neg Bool.false_ne_true, localAct_free h ha hr hacc]

theorem stopsD_of_loadD {mk : CoreIx → RunId → FmtD → Instr} {w : Nat} {ext : Nat → Word}
    (hx : ∀ c id f s, exec (mk c id f) s = loadD w ext c id f s) : StopsD mk w true := by
  intro s c id r f h hrsv hm
  rw [hx, loadD]
  exact access_stops h (by simp [hrsv]) (if_neg (Bool.eq_false_iff.mp (badRd_of_mayWrite (hm rfl))))

/-! ### The stores -/

/-- The state after a local store of `bs` at `a`. -/
def storedState (s : State) (c : CoreIx) (id : RunId) (r : Run) (a : Nat) (bs : List Byte) : State :=
  setCore s c.val (({ getCore s c.val with sram := mwrites (getCore s c.val).sram a bs } : Core).setRun id (pastWord r r.pc.toNat).1).issued

theorem sram_storedState (s : State) (c : CoreIx) (id : RunId) (r : Run) (a : Nat) (bs : List Byte) :
    (getCore (storedState s c id r a bs) c.val).sram = mwrites (getCore s c.val).sram a bs := by
  rw [storedState, getCore_setCore]; cases id <;> rfl

/-- With the bytes of data SRAM put back, a store has changed nothing but its run. -/
theorem onlyRun_storedState (s : State) (c : CoreIx) (id : RunId) (r : Run) (a : Nat) (bs : List Byte) :
    OnlyRun s (setCore (storedState s c id r a bs) c.val { getCore (storedState s c id r a bs) c.val with sram := (getCore s c.val).sram })
      c id (pastWord r r.pc.toNat).1 := by
  have hcore : ({ getCore (storedState s c id r a bs) c.val with sram := (getCore s c.val).sram } : Core) =
      ((getCore s c.val).setRun id (pastWord r r.pc.toNat).1).issued := by
    rw [storedState, getCore_setCore]; cases id <;> rfl
  rw [hcore, storedState, setCore_setCore]
  exact onlyRun_same _

theorem storeD_stores {s : State} {c : CoreIx} {id : RunId} {r : Run} {f : FmtD} {w : Nat} (h : Ready s c id r f.g [f.rd, f.rs1])
    (hrsv : f.rsv = 0) (hn : HasNext r) (ha : addrD s c id f % w = 0) (hr : addrD s c id f + w ≤ 0x40000)
    (hacc : accBlock (getCore s c.val) [(addrD s c id f, w)] = none) :
    storeD w c id f s = .next (storedState s c id r (addrD s c id f) (leBytes w (readS s c id f.rd).toNat)) := by
  have hp : (pastWord r r.pc.toNat).2 = false := hn
  rw [storeD, issue_ready h (by simp [hrsv]), localAct_free h ha hr hacc, doAct_go_seq, hp, settle_false, readS_of_ready h]
  rfl

/-- The rule of the local stores. -/
theorem storesD_of_storeD {mk : CoreIx → RunId → FmtD → Instr} {w : Nat} (hx : ∀ c id f s, exec (mk c id f) s = storeD w c id f s) :
    StoresD mk w := by
  intro s c id r f h hrsv hn ha hr hacc
  refine ⟨_, (hx c id f s).trans (storeD_stores h hrsv hn ha hr hacc), fun i hi => ?_, fun b hb => ?_, onlyRun_storedState ..⟩
  · rw [sram_storedState, mread_mwrites, length_leBytes, if_pos (by omega), Nat.add_sub_cancel_left, toNat_getD_leBytes _ hi]
  · rw [sram_storedState, mread_mwrites, length_leBytes, if_neg (by omega)]

theorem stopsD_of_storeD {mk : CoreIx → RunId → FmtD → Instr} {w : Nat} (hx : ∀ c id f s, exec (mk c id f) s = storeD w c id f s) :
    StopsD mk w false := by
  intro s c id r f h hrsv _
  rw [hx, storeD]
  exact access_stops h (by simp [hrsv]) rfl

/-- Settles O6: each local load and store is an access of its width, and the accesses have one rule for what they do and one for what stops them. -/
theorem localMemory : Obligations.LocalMemory := by
  unfold Obligations.LocalMemory
  refine ⟨⟨?ldW, ?ldH, ?ldB, ?ldHs, ?ldBs⟩, ⟨?stW, ?stH, ?stB⟩, ⟨?sldW, ?sldH, ?sldHs, ?sldB, ?sldBs, ?sstW, ?sstH, ?sstB⟩⟩
  case ldW => exact loadsD_of_loadD (fun _ _ _ _ => rfl) fun _ _ => rfl
  case ldH => exact loadsD_of_loadD (fun _ _ _ _ => rfl) fun _ _ => rfl
  case ldB => exact loadsD_of_loadD (fun _ _ _ _ => rfl) fun _ _ => rfl
  case ldHs => exact loadsD_of_loadD exec_ldLHs fun n hn => by rw [signed_two_bytes hn]
  case ldBs => exact loadsD_of_loadD exec_ldLBs fun n hn => by rw [signed_one_byte hn]
  case stW => exact storesD_of_storeD fun _ _ _ _ => rfl
  case stH => exact storesD_of_storeD fun _ _ _ _ => rfl
  case stB => exact storesD_of_storeD fun _ _ _ _ => rfl
  case sldW => exact stopsD_of_loadD fun _ _ _ _ => rfl
  case sldH => exact stopsD_of_loadD fun _ _ _ _ => rfl
  case sldHs => exact stopsD_of_loadD exec_ldLHs
  case sldB => exact stopsD_of_loadD fun _ _ _ _ => rfl
  case sldBs => exact stopsD_of_loadD exec_ldLBs
  case sstW => exact stopsD_of_storeD fun _ _ _ _ => rfl
  case sstH => exact stopsD_of_storeD fun _ _ _ _ => rfl
  case sstB => exact stopsD_of_storeD fun _ _ _ _ => rfl

end Sys2Proof
end
